-- ==== Sys2Proof/Word.lean ====
section
/-! DEFINITION. The word types of the SOP framer core (spec 00_scope.md R12 to R14). -/

namespace Sys2Proof

/-- A stream byte, `0..255` (R12). -/
abbrev Byte := BitVec 8

/-- A 16-bit field of the frame (R63). -/
abbrev Half := BitVec 16

/-- The 32-bit encoding of a binary32 number (R17). -/
abbrev F32 := BitVec 32

/-- A byte count of a read: the 5-bit register `cnt` (R27) and the port field `out_count` (R35). -/
abbrev Cnt := BitVec 5

/-- Format `F` in byte form: the 22 payload bytes, by payload offset (R42, R63). -/
abbrev Frame := Vector Byte 22

end Sys2Proof
end

