-- ==== Sys2Proof/Config.lean ====
section
/-! DEFINITION. The constants of spec 00_scope.md R10, and the free values: what the registers hold that the
spec calls unspecified (R38, R84, R153; 93_implementation_defined.md I1, I2). A free value has no body, so nothing
can be proved of it but what holds of every value. -/

namespace Sys2Proof.Config

/-- First marker byte (R10). -/
def sop0 : Byte := 0x55

/-- Second marker byte (R10). -/
def sop1 : Byte := 0x55

/-- Bytes of a probe read (R10). -/
def sopLen : Nat := 2

/-- Bytes of a payload read (R10). -/
def payloadLen : Nat := 22

/-- Payload bytes the checksum covers (R10). -/
def dataLen : Nat := 20

/-- `sop0` when it is unspecified; the argument numbers the draw (R38, R153; log entry 4). -/
opaque freeSop0 : Nat → Byte

/-- `buf[0..21]` when it is unspecified (R38, R153; log entry 4). -/
opaque freeBuf : Nat → Frame

/-- `out_status` when it is unspecified (R35, R153, I2; log entries 4, 6). -/
opaque freeStatus : Nat → BitVec 3

/-- `out_phase` when it is unspecified (R35, R153, I2; log entries 4, 6). -/
opaque freePhase : Nat → BitVec 1

/-- `out_count` when it is unspecified (R35, R153, I2; log entries 4, 6). -/
opaque freeCount : Nat → Cnt

/-- `out_sample[0..9]` when it is unspecified (R84, R116, R153, I2; log entries 4, 5, 6). -/
opaque freeSample : Nat → Vector F32 10

end Sys2Proof.Config
end

