-- ==== Sys2Proof/Syntax.lean ====
section
/-! DEFINITION. The input events, and the operations that take the place of instructions: one constructor of
`Instr` per row of spec/opcode_table.json (00_scope.md R3, 30_encoding.md R72, R73). -/

namespace Sys2Proof

/-- The control state `phase`; `0b11` is never held, so the type has three values (R26, R89, I4). -/
inductive Phase where
  | probe
  | payload
  | failed
deriving DecidableEq, Repr

/-- The read an outcome concerns: `ph` of `ShortRead(ph, k)` and `TransportFailure(ph, k)` (R80). -/
inductive ReadPhase where
  | probe
  | payload
deriving DecidableEq, Repr

/-- The input event alphabet (R25). -/
inductive Event where
  /-- `Byte(b)`: the next stream byte. -/
  | byte (b : Byte)
  /-- `End`: the transport ends the read short. -/
  | endRead
  /-- `Fail`: the transport failed or closed. -/
  | fail
  /-- `Reset`: the host restarts the core. -/
  | reset
deriving DecidableEq, Repr

/-- The operations. The ten rows of format `SEL` carry those fields of the selector that their pseudocode uses;
the rows of format `F` act on `buf`, but for `NORMALIZE`, whose operand is the integer itself (R117; log
entries 15, 19). -/
inductive Instr where
  /-- `RESET` (R153). -/
  | reset
  /-- `FAILED_HOLD` (R101): the event presented and not taken. -/
  | failedHold (e : Event)
  /-- `XPORT_FAIL` (R100) in state `(ph, k)`. -/
  | xportFail (ph : ReadPhase) (k : Cnt)
  /-- `PROBE_MATCH` (R94). -/
  | probeMatch
  /-- `PROBE_MISS` (R95): the probe word `b0 ‖ b1`. -/
  | probeMiss (b0 b1 : Byte)
  /-- `PROBE_FIRST` (R93). -/
  | probeFirst (b : Byte)
  /-- `PROBE_END` (R98) in state `(PROBE, k)`. -/
  | probeEnd (k : Cnt)
  /-- `PAYLOAD_LAST` (R97). -/
  | payloadLast (b : Byte)
  /-- `PAYLOAD_BYTE` (R96) in state `(PAYLOAD, i)`. -/
  | payloadByte (i : Cnt) (b : Byte)
  /-- `PAYLOAD_END` (R99) in state `(PAYLOAD, k)`. -/
  | payloadEnd (k : Cnt)
  /-- `FRAME_COMPLETE` (R115). -/
  | frameComplete
  /-- `VALIDATE` (R107). -/
  | validate
  /-- `DECODE_QUAT` (R122). -/
  | decodeQuat
  /-- `DECODE_GYRO` (R123). -/
  | decodeGyro
  /-- `DECODE_ACCEL` (R124). -/
  | decodeAccel
  /-- `NORMALIZE` (R117) of the 16-bit pattern of `v`. -/
  | normalize (v : Half)
deriving DecidableEq, Repr

/-- The mnemonics of spec/opcode_table.json. -/
inductive Op where
  | reset
  | failedHold
  | xportFail
  | probeMatch
  | probeMiss
  | probeFirst
  | probeEnd
  | payloadLast
  | payloadByte
  | payloadEnd
  | frameComplete
  | validate
  | decodeQuat
  | decodeGyro
  | decodeAccel
  | normalize
deriving DecidableEq, Repr

/-- The row an operation stands in. -/
def Instr.op : Instr → Op
  | .reset => .reset
  | .failedHold _ => .failedHold
  | .xportFail _ _ => .xportFail
  | .probeMatch => .probeMatch
  | .probeMiss _ _ => .probeMiss
  | .probeFirst _ => .probeFirst
  | .probeEnd _ => .probeEnd
  | .payloadLast _ => .payloadLast
  | .payloadByte _ _ => .payloadByte
  | .payloadEnd _ => .payloadEnd
  | .frameComplete => .frameComplete
  | .validate => .validate
  | .decodeQuat => .decodeQuat
  | .decodeGyro => .decodeGyro
  | .decodeAccel => .decodeAccel
  | .normalize _ => .normalize

end Sys2Proof
end

