-- ==== Sys2Proof/WellFormed.lean ====
section
/-! DEFINITION. Which operations the selection of spec 30_encoding.md R73 and 40_framer.md R91 can give: the operand
ranges of R27 and R91. -/

namespace Sys2Proof

/-- How many bytes a read asks for (R10). -/
def ReadPhase.len : ReadPhase → Nat
  | .probe => Config.sopLen
  | .payload => Config.payloadLen

/-- The operand ranges of R91, row by row. -/
def Instr.wellFormed : Instr → Bool
  | .reset => true
  | .failedHold e => decide (e ≠ .reset)
  | .xportFail ph k => decide (k.toNat < ph.len)
  | .probeMatch => true
  | .probeMiss b0 b1 => !(b0 == Config.sop0 && b1 == Config.sop1)
  | .probeFirst _ => true
  | .probeEnd k => decide (k.toNat < ReadPhase.probe.len)
  | .payloadLast _ => true
  | .payloadByte i _ => decide (i.toNat + 1 < ReadPhase.payload.len)
  | .payloadEnd k => decide (k.toNat < ReadPhase.payload.len)
  | .frameComplete => true
  | .validate => true
  | .decodeQuat => true
  | .decodeGyro => true
  | .decodeAccel => true
  | .normalize _ => true

end Sys2Proof
end

