-- ==== Sys2Proof/Decode.lean ====
section
/-! DEFINITION. The operation selector `SEL` and its decoder (spec 30_encoding.md R72 to R75), the rows of
spec/opcode_table.json as data, the encoder, and the decoder on a table word. -/

namespace Sys2Proof

/-- The fields of the 25-bit selector (R72). -/
structure Sel where
  /-- Bits 24:23. -/
  phase : BitVec 2
  /-- Bits 22:18. -/
  cnt : Cnt
  /-- Bits 17:16. -/
  kind : BitVec 2
  /-- Bits 15:8. -/
  sop0 : Byte
  /-- Bits 7:0. -/
  data : Byte
deriving DecidableEq, Repr

/-- The selector as one word (R72). -/
def Sel.word (s : Sel) : BitVec 25 := s.phase ++ s.cnt ++ s.kind ++ s.sop0 ++ s.data

/-- The fields of a selector word (R72). -/
def Sel.ofWord (w : BitVec 25) : Sel where
  phase := w.extractLsb' 23 2
  cnt := w.extractLsb' 18 5
  kind := w.extractLsb' 16 2
  sop0 := w.extractLsb' 8 8
  data := w.extractLsb' 0 8

/-- The two encoded formats of the opcode table: a selector or a frame (R60, R64, R72). -/
inductive Code where
  | sel (w : BitVec 25)
  | frame (f : BitVec 176)
deriving DecidableEq, Repr

/-- Why a selector selects no row. -/
inductive DecodeError where
  /-- `phase = 11` is never held, so such a word selects no row (R75, R89, I4). -/
  | phaseNeverHeld
  /-- A `cnt` that the read in progress never reaches (R27, R91). -/
  | cntNeverHeld
deriving DecidableEq, Repr

/-- The 2-bit code of `phase` (R26, R89). -/
def Phase.code : Phase → BitVec 2
  | .probe => 0b00
  | .payload => 0b01
  | .failed => 0b10

/-- The phase a code stands for; none for `11` (R89). -/
def Phase.ofCode (c : BitVec 2) : Option Phase :=
  if c = 0b00 then some .probe
  else if c = 0b01 then some .payload
  else if c = 0b10 then some .failed
  else none

/-- The `kind` field of an event (R72). -/
def Event.kind : Event → BitVec 2
  | .byte _ => 0b00
  | .endRead => 0b01
  | .fail => 0b10
  | .reset => 0b11

/-- The `data` field of an event: the byte of `Byte(b)`. It is not meaningful for the others, which show `00` as in
vector V-P5 (R72; log entry 24). -/
def Event.data : Event → Byte
  | .byte b => b
  | .endRead => 0
  | .fail => 0
  | .reset => 0

/-- The event that a `kind` and a `data` field show (R72). -/
def Event.ofFields (kind : BitVec 2) (data : Byte) : Event :=
  if kind = 0b00 then .byte data
  else if kind = 0b01 then .endRead
  else if kind = 0b10 then .fail
  else .reset

/-- The read that a phase code below `10` has in progress (R26). -/
def ReadPhase.ofCode (c : BitVec 2) : ReadPhase := if c = 0b00 then .probe else .payload

/-- The phase code of a read (R26). -/
def ReadPhase.code : ReadPhase → BitVec 2
  | .probe => 0b00
  | .payload => 0b01

/-- The selection of R73, in its priority order. -/
def selectOp (s : Sel) : Except DecodeError Instr :=
  if s.kind = 0b11 then .ok .reset
  else if s.phase = 0b10 then .ok (.failedHold (Event.ofFields s.kind s.data))
  else if s.kind = 0b10 then .ok (.xportFail (ReadPhase.ofCode s.phase) s.cnt)
  else if s.phase = 0b00 then
    if s.kind = 0b00 then
      if s.cnt = 1 then
        if s.sop0 = Config.sop0 ∧ s.data = Config.sop1 then .ok .probeMatch
        else .ok (.probeMiss s.sop0 s.data)
      else if s.cnt = 0 then .ok (.probeFirst s.data)
      else .error .cntNeverHeld
    else .ok (.probeEnd s.cnt)
  else
    if s.kind = 0b00 then
      if s.cnt = 21 then .ok (.payloadLast s.data)
      else .ok (.payloadByte s.cnt s.data)
    else .ok (.payloadEnd s.cnt)

/-- The selector decoder: R73, less the words R75 and R91 exclude (log entry 12). -/
def decodeSel (s : Sel) : Except DecodeError Instr :=
  if s.phase = 0b11 then .error .phaseNeverHeld
  else
    match selectOp s with
    | .ok i => if i.wellFormed then .ok i else .error .cntNeverHeld
    | .error e => .error e

/-- The decoder. Every frame is `FRAME_COMPLETE`'s, the first of the rows of format `F` (R72, R73, R115; log
entry 14). -/
def decode : Code → Except DecodeError Instr
  | .sel w => decodeSel (Sel.ofWord w)
  | .frame _ => .ok .frameComplete

/-- The selector of each operation of format `SEL`, written from its row and R72; fields the row leaves open and the
operation does not carry are 0. -/
def Instr.sel? : Instr → Option Sel
  | .reset => some ⟨0b00, 0, 0b11, 0, 0⟩
  | .failedHold e => some ⟨0b10, 0, e.kind, 0, e.data⟩
  | .xportFail ph k => some ⟨ph.code, k, 0b10, 0, 0⟩
  | .probeMatch => some ⟨0b00, 1, 0b00, 0x55, 0x55⟩
  | .probeMiss b0 b1 => some ⟨0b00, 1, 0b00, b0, b1⟩
  | .probeFirst b => some ⟨0b00, 0, 0b00, 0, b⟩
  | .probeEnd k => some ⟨0b00, k, 0b01, 0, 0⟩
  | .payloadLast b => some ⟨0b01, 21, 0b00, 0, b⟩
  | .payloadByte i b => some ⟨0b01, i, 0b00, 0, b⟩
  | .payloadEnd k => some ⟨0b01, k, 0b01, 0, 0⟩
  | .frameComplete => none
  | .validate => none
  | .decodeQuat => none
  | .decodeGyro => none
  | .decodeAccel => none
  | .normalize _ => none

/-- The encoder. The rows `VALIDATE`, `DECODE_*` and `NORMALIZE` have no words of their own: their match and mask are
`FRAME_COMPLETE`'s, which comes first (R73; log entry 14). -/
def encode (i : Instr) : Option Code :=
  match i.sel? with
  | some s => some (.sel s.word)
  | none => if i = .frameComplete then some (.frame 0) else none

/-- A row of spec/opcode_table.json: which words it matches. The rows stand in priority order. -/
structure Row where
  op : Op
  /-- Whether the row matches on the selector; the others have format `F`. -/
  onSel : Bool
  pattern : Nat
  mask : Nat
deriving DecidableEq, Repr

/-- The rows of spec/opcode_table.json, priority 1 first. -/
def opcodeRows : List Row :=
  [ ⟨.reset, true, 0x0030000, 0x0030000⟩,
    ⟨.failedHold, true, 0x1000000, 0x1800000⟩,
    ⟨.xportFail, true, 0x0020000, 0x1030000⟩,
    ⟨.probeMatch, true, 0x0045555, 0x1FFFFFF⟩,
    ⟨.probeMiss, true, 0x0040000, 0x1FF0000⟩,
    ⟨.probeFirst, true, 0x0000000, 0x1FF0000⟩,
    ⟨.probeEnd, true, 0x0010000, 0x1830000⟩,
    ⟨.payloadLast, true, 0x0D40000, 0x1FF0000⟩,
    ⟨.payloadByte, true, 0x0800000, 0x1830000⟩,
    ⟨.payloadEnd, true, 0x0810000, 0x1830000⟩,
    ⟨.frameComplete, false, 0, 0⟩,
    ⟨.validate, false, 0, 0⟩,
    ⟨.decodeQuat, false, 0, 0⟩,
    ⟨.decodeGyro, false, 0, 0⟩,
    ⟨.decodeAccel, false, 0, 0⟩,
    ⟨.normalize, false, 0, 0⟩ ]

/-- Whether a row matches a word (R72). -/
def Row.accepts (r : Row) : Code → Bool
  | .sel w => r.onSel && (w.toNat &&& r.mask == r.pattern)
  | .frame f => !r.onSel && (f.toNat &&& r.mask == r.pattern)

/-- The row that applies: the matching row with the lowest priority number (R72). -/
def rowOf (c : Code) : Option Op :=
  match opcodeRows.find? (·.accepts c) with
  | some r => some r.op
  | none => none

/-- The word of `nbits` bits that the table gives a row: a selector where it reaches the `kind` field (bits 17:16, up to
32 bits), else a frame (176 bits; the rows of format `F` are given none). Bits above the format's width make no
word of it. -/
def codeOfTable (nbits w : Nat) : Option Code :=
  if 17 < nbits ∧ nbits ≤ 32 then
    if w < 2 ^ 25 then some (.sel (BitVec.ofNat 25 w)) else none
  else if w < 2 ^ 176 then some (.frame (BitVec.ofNat 176 w)) else none

/-- What the decoder reads from a table word; none where it refuses. -/
def decodeTableWord (nbits w : Nat) : Option Instr :=
  match codeOfTable nbits w with
  | none => none
  | some c =>
    match decode c with
    | .ok i => some i
    | .error _ => none

end Sys2Proof
end

