-- ==== Sys2Proof/Machine/State.lean ====
section
/-! DEFINITION. The state of the core (spec 10_state.md) with the environment's inputs and outputs, the outcomes it
reports (30_encoding.md R80), its reset, and the reasons a step can stop. -/

namespace Sys2Proof.Machine

/-- The sample record, in the order of R82; each field is the encoding of a binary32 value. -/
structure Sample where
  qx : F32
  qy : F32
  qz : F32
  qw : F32
  gyroX : F32
  gyroY : F32
  gyroZ : F32
  accelX : F32
  accelY : F32
  accelZ : F32
deriving DecidableEq, Repr

/-- The outcome an attempt ends with (R80). Named `Report` because `Host.Outcome` is the outcome of a step. -/
inductive Report where
  | sample (w : Sample)
  | noSop
  | shortRead (ph : ReadPhase) (k : Cnt)
  | checksumMismatch
  | transportFailure (ph : ReadPhase) (k : Cnt)
deriving DecidableEq, Repr

/-- The output holding register (R35). -/
structure OutReg where
  /-- `out_valid`. -/
  valid : Bool
  /-- `out_status` (R81). -/
  status : BitVec 3
  /-- `out_phase` (R83). -/
  phase : BitVec 1
  /-- `out_count` (R83). -/
  count : Cnt
  /-- `out_sample[0..9]` (R82). -/
  sample : Vector F32 10
deriving DecidableEq, Repr

/-- A quaternion's four lanes (R122). -/
structure Quat where
  x : F32
  y : F32
  z : F32
  w : F32
deriving DecidableEq, Repr

/-- A vector's three lanes (R123, R124). -/
structure Vec3 where
  x : F32
  y : F32
  z : F32
deriving DecidableEq, Repr

/-- What the combinational logic of the frame operations drives within a step (R33, R107, R117, R122 to R124). The
model's own field: `FRAME_COMPLETE` leaves it idle, so nothing of it lasts from one step to the next (log entry 13). -/
structure Nets where
  /-- `chk_ok` of `VALIDATE`. -/
  chkOk : Bool
  /-- The output of `NORMALIZE`. -/
  norm : F32
  /-- The output of `DECODE_QUAT`. -/
  quat : Quat
  /-- The output of `DECODE_GYRO`. -/
  gyro : Vec3
  /-- The output of `DECODE_ACCEL`. -/
  accel : Vec3
deriving DecidableEq, Repr

/-- The nets between steps (log entry 13). -/
def Nets.idle : Nets := ⟨false, 0, ⟨0, 0, 0, 0⟩, ⟨0, 0, 0⟩, ⟨0, 0, 0⟩⟩

/-- The port inputs during the cycle before a rising edge (R85). -/
structure EdgeIn where
  rst : Bool
  rxValid : Bool
  rxData : Byte
  rxEnd : Bool
  rxFail : Bool
  outReady : Bool
deriving DecidableEq, Repr

/-- The state. The first four fields are the core's (R21), `out` is the port-level output register (R35); the rest is
the model's view of the combinational nets and of the environment (log entries 9, 13, 16). -/
structure State where
  /-- R26. -/
  phase : Phase
  /-- R27. -/
  cnt : Cnt
  /-- R28. -/
  sop0 : Byte
  /-- R29. -/
  buf : Frame
  /-- R35. -/
  out : OutReg
  /-- The model's own (log entry 13). -/
  nets : Nets
  /-- The port inputs of the edges still to come (R11, R85; log entry 9). -/
  edges : List EdgeIn
  /-- The events the core has taken, oldest first (R37, R40; log entry 16). -/
  consumed : List Event
  /-- The event-level output: the outcomes emitted, oldest first (R36). -/
  emitted : List Report
  /-- The outcomes the consumer has taken, oldest first (R22, R36; log entry 16). -/
  received : List Report
  /-- How many free values have been drawn: the model's own (log entry 4). -/
  free : Nat
deriving DecidableEq, Repr

/-- Why the machine stops. No state that a run reaches meets one. -/
inductive Fault where
  /-- The consumer finds a reserved `out_status`, a fault of the environment (R84, I3). Raised by the hand-over. Safe: the core
  never produces the code (log entry 17). -/
  | reservedStatus
  /-- A buffer write beyond payload offset 21, where R39 gives no location. Raised by `PAYLOAD_BYTE`. Safe: R91 excludes such a
  count (log entry 18). -/
  | noSuchBufferByte
deriving DecidableEq, Repr

/-- Why the model gives no meaning. -/
inductive Refusal where
  /-- An operation the model has not given a meaning yet. Raised by no arm. Safe: it claims nothing. -/
  | notModelled (mnemonic : String)
  /-- The selector of the state and the event selects no row (R75, R91, I4). Raised by the selection of an event. Safe: no
  reachable state has such a selector (log entry 12). -/
  | unreachableSelector
deriving DecidableEq, Repr

/-- The state after `Reset` (R38, R154): the unspecified registers are 0 here (log entries 1, 2, 3), no input is pending and
nothing has been reported. -/
def State.reset : State where
  phase := .probe
  cnt := 0
  sop0 := 0
  buf := Vector.replicate 22 0
  out := { valid := false, status := 0, phase := 0, count := 0, sample := Vector.replicate 10 0 }
  nets := Nets.idle
  edges := []
  consumed := []
  emitted := []
  received := []
  free := 0

end Sys2Proof.Machine
end

