-- ==== Sys2Proof/Machine/Operands.lean ====
section
/-! DEFINITION. Operand assembly (spec 20_memory.md R44 to R48, 30_encoding.md R63 to R70): the 16-bit fields of the frame in
byte form and in bit form. -/

namespace Sys2Proof.Machine

/-- `be16(i) = buf[i] ‖ buf[i+1]` (R65). -/
def be16 (f : Frame) (i : Fin 21) : Half := f[i.val]'(by omega) ++ f[i.val + 1]'(by omega)

/-- `le16(i) = buf[i+1] ‖ buf[i]` (R66). -/
def le16 (f : Frame) (i : Fin 21) : Half := f[i.val + 1]'(by omega) ++ f[i.val]'(by omega)

/-- `s16(u)`: the two's-complement reading (R14). -/
def s16 (u : Half) : Int := u.toInt

/-- The ten data fields as 16-bit patterns, and the checksum field (R63). -/
structure Fields where
  a : Half
  b : Half
  c : Half
  d : Half
  gx : Half
  gy : Half
  gz : Half
  ax : Half
  ay : Half
  az : Half
  chk : Half
deriving DecidableEq, Repr

/-- The fields of a frame, byte form (R63, R67 to R70). -/
def fieldsOf (f : Frame) : Fields where
  a := be16 f 0
  b := be16 f 2
  c := be16 f 4
  d := be16 f 6
  gx := le16 f 8
  gy := le16 f 10
  gz := le16 f 12
  ax := le16 f 14
  ay := le16 f 16
  az := le16 f 18
  chk := le16 f 20

/-- `F = buf[0] ‖ buf[1] ‖ … ‖ buf[21]` (R64). -/
def frameBits (f : Frame) : BitVec 176 :=
  f[0] ++ f[1] ++ f[2] ++ f[3] ++ f[4] ++ f[5] ++ f[6] ++ f[7] ++ f[8] ++ f[9] ++ f[10] ++ f[11] ++ f[12] ++ f[13] ++
    f[14] ++ f[15] ++ f[16] ++ f[17] ++ f[18] ++ f[19] ++ f[20] ++ f[21]

/-- `buf[i] = F[175-8i : 168-8i]` (R64). -/
def frameOfBits (w : BitVec 176) : Frame := Vector.ofFn fun i => w.extractLsb' (168 - 8 * i.val) 8

/-- The fields of a frame, bit form (R64). -/
def fieldsOfBits (w : BitVec 176) : Fields where
  a := w.extractLsb 175 160
  b := w.extractLsb 159 144
  c := w.extractLsb 143 128
  d := w.extractLsb 127 112
  gx := w.extractLsb 103 96 ++ w.extractLsb 111 104
  gy := w.extractLsb 87 80 ++ w.extractLsb 95 88
  gz := w.extractLsb 71 64 ++ w.extractLsb 79 72
  ax := w.extractLsb 55 48 ++ w.extractLsb 63 56
  ay := w.extractLsb 39 32 ++ w.extractLsb 47 40
  az := w.extractLsb 23 16 ++ w.extractLsb 31 24
  chk := w.extractLsb 7 0 ++ w.extractLsb 15 8

end Sys2Proof.Machine
end

