-- ==== Sys2Proof/Machine/Flags.lean ====
section
/-! DEFINITION. The checksum and its comparison (spec 41_validator.md). The core has no flags (10_state.md R33); `chk_ok` is its
only status result, and it lives within one step. -/

namespace Sys2Proof.Machine

/-- The unreduced sum `0xAA + Σ buf[0..19]`, on mathematical integers: the two marker bytes as constants (R107, R109). -/
def rawSum (f : Frame) : Nat :=
  Config.sop0.toNat + Config.sop1.toNat + ((f.toList.take Config.dataLen).map BitVec.toNat).sum

/-- `S`: the sum `mod 2^16` (R107). -/
def chkSum (f : Frame) : Half := BitVec.ofNat 16 (rawSum f)

/-- `C`: the little-endian checksum field (R70, R107). -/
def chkField (f : Frame) : Half := (fieldsOf f).chk

/-- `chk_ok = (S == C)` (R107, R108). -/
def chkOk (f : Frame) : Bool := chkSum f == chkField f

end Sys2Proof.Machine
end

