-- ==== Sys2Proof/Machine/Normalizer.lean ====
section
/-! DEFINITION. The int16-to-float32 normaliser and the field decode (spec 42_decoder.md), and the value of a binary32
encoding (00_scope.md R17). -/

namespace Sys2Proof.Machine

/-- `bits32(N(v))`: the closed form of R119 for `N(v) = f32(v / 32768)`. -/
def normBits (u : Half) : F32 :=
  let v := s16 u
  if v = 0 then 0
  else
    let s : Nat := if v < 0 then 1 else 0
    let m := v.natAbs
    let e := m.log2
    BitVec.ofNat 32 ((s <<< 31) ||| ((112 + e) <<< 23) ||| ((m <<< (23 - e)) - (1 <<< 23)))

/-- The sign bit of a binary32 encoding, bit 31 (R17). -/
def f32Sign (w : F32) : Nat := w.toNat / 2 ^ 31

/-- The biased exponent, bits 30:23 (R17). -/
def f32Exp (w : F32) : Nat := w.toNat / 2 ^ 23 % 2 ^ 8

/-- The fraction, bits 22:0 (R17). -/
def f32Frac (w : F32) : Nat := w.toNat % 2 ^ 23

/-- The number a binary32 encoding stands for, none for an infinity or a NaN: IEEE 754, bias 127 (R17). -/
def f32Value (w : F32) : Option ℚ :=
  let sign : ℚ := if f32Sign w = 1 then -1 else 1
  if f32Exp w = 255 then none
  else if f32Exp w = 0 then some (sign * f32Frac w / 2 ^ 149)
  else some (sign * ((2 ^ 23 + f32Frac w : ℕ) : ℚ) * 2 ^ f32Exp w / 2 ^ 150)

/-- `qz = N(a); qy = N(b); qx = N(c); qw = N(d)`: the axis permutation of R122. -/
def quatOf (f : Frame) : Quat where
  z := normBits (fieldsOf f).a
  y := normBits (fieldsOf f).b
  x := normBits (fieldsOf f).c
  w := normBits (fieldsOf f).d

/-- `gyro_x = N(gx); gyro_y = N(gy); gyro_z = N(gz)` (R123). -/
def gyroOf (f : Frame) : Vec3 where
  x := normBits (fieldsOf f).gx
  y := normBits (fieldsOf f).gy
  z := normBits (fieldsOf f).gz

/-- `accel_x = N(ax); accel_y = N(ay); accel_z = N(az)` (R124). -/
def accelOf (f : Frame) : Vec3 where
  x := normBits (fieldsOf f).ax
  y := normBits (fieldsOf f).ay
  z := normBits (fieldsOf f).az

/-- The record of R82 from its three vectors (R125). -/
def sampleOf (q : Quat) (g a : Vec3) : Sample where
  qx := q.x
  qy := q.y
  qz := q.z
  qw := q.w
  gyroX := g.x
  gyroY := g.y
  gyroZ := g.z
  accelX := a.x
  accelY := a.y
  accelZ := a.z

/-- `DECODE(buf)` (R125). -/
def decodeFrame (f : Frame) : Sample := sampleOf (quatOf f) (gyroOf f) (accelOf f)

end Sys2Proof.Machine
end

