-- ==== Sys2Proof/Machine/Ops.lean ====
section
/-! DEFINITION. The named operations over the registers: the payload buffer, the outcome encoding and `emit`, the error entry
`raise` (spec 60_exceptions.md R135), the hand-over to the consumer (30_encoding.md R88), and the nets of the frame
operations. The core has no return operation: a non-fatal outcome goes on by itself, and `RESET` is the only way out of
`FAILED` (R143, R144). -/

namespace Sys2Proof.Machine

/-- Read payload buffer byte `i` (R16, R29). -/
def State.readBuf (s : State) (i : Fin 22) : Byte := s.buf[i.val]

/-- `buf[i] <- b` (R16, R29). -/
def State.writeBuf (s : State) (i : Fin 22) (b : Byte) : State := { s with buf := s.buf.set i.val b }

/-- `out_status` of an outcome (R81). -/
def Report.status : Report → BitVec 3
  | .noSop => 0b000
  | .sample _ => 0b001
  | .shortRead _ _ => 0b010
  | .checksumMismatch => 0b011
  | .transportFailure _ _ => 0b100

/-- `out_phase`: 0 for the probe, 1 for the payload (R83). -/
def bitOfRead : ReadPhase → BitVec 1
  | .probe => 0
  | .payload => 1

/-- The read an `out_phase` bit stands for (R83). -/
def readOfBit (b : BitVec 1) : ReadPhase := if b = 0 then .probe else .payload

/-- `out_phase` of an outcome (R83). -/
def Report.phaseBit : Report → BitVec 1
  | .noSop => 0
  | .sample _ => 1
  | .shortRead ph _ => bitOfRead ph
  | .checksumMismatch => 1
  | .transportFailure ph _ => bitOfRead ph

/-- `out_count` of an outcome (R83). -/
def Report.count : Report → Cnt
  | .noSop => 2
  | .sample _ => 22
  | .shortRead _ k => k
  | .checksumMismatch => 22
  | .transportFailure _ k => k

/-- The ten words in the order of R82. -/
def Sample.words (w : Sample) : Vector F32 10 :=
  #v[w.qx, w.qy, w.qz, w.qw, w.gyroX, w.gyroY, w.gyroZ, w.accelX, w.accelY, w.accelZ]

/-- The record that ten words stand for (R82). -/
def Sample.ofWords (v : Vector F32 10) : Sample :=
  ⟨v[0], v[1], v[2], v[3], v[4], v[5], v[6], v[7], v[8], v[9]⟩

/-- `out_sample` of an outcome: unspecified unless it is a `Sample`, so the `n`-th free value there (R84, R88; log entry 5). -/
def Report.words (n : Nat) : Report → Vector F32 10
  | .sample w => w.words
  | .noSop => Config.freeSample n
  | .shortRead _ _ => Config.freeSample n
  | .checksumMismatch => Config.freeSample n
  | .transportFailure _ _ => Config.freeSample n

/-- The output register holding an outcome (R35, R88). -/
def OutReg.hold (r : Report) (n : Nat) : OutReg where
  valid := true
  status := r.status
  phase := r.phaseBit
  count := r.count
  sample := r.words n

/-- The output register with nothing held: its other fields are unspecified (R35, R153, I2; log entries 4, 6). -/
def OutReg.unspecified (n : Nat) : OutReg where
  valid := false
  status := Config.freeStatus n
  phase := Config.freePhase n
  count := Config.freeCount n
  sample := Config.freeSample n

/-- The outcome a consumer reads from the port fields; none for a reserved `out_status` (R81 to R84). -/
def OutReg.report? (o : OutReg) : Option Report :=
  if o.status = 0b000 then some .noSop
  else if o.status = 0b001 then some (.sample (Sample.ofWords o.sample))
  else if o.status = 0b010 then some (.shortRead (readOfBit o.phase) o.count)
  else if o.status = 0b011 then some .checksumMismatch
  else if o.status = 0b100 then some (.transportFailure (readOfBit o.phase) o.count)
  else none

/-- `emit(o)`: append to the output sequence (R16, R36) and, at the port, hold the outcome (R88). -/
def State.emit (s : State) (r : Report) : State :=
  { s with emitted := s.emitted ++ [r], out := OutReg.hold r s.free, free := s.free + 1 }

/-- Where an outcome leaves `phase`: `FAILED` after a transport failure, else `PROBE` (R135, R143). -/
def Report.nextPhase : Report → Phase
  | .noSop => .probe
  | .sample _ => .probe
  | .shortRead _ _ => .probe
  | .checksumMismatch => .probe
  | .transportFailure _ _ => .failed

/-- `raise O(info)`: emit, discard the attempt, start over; `buf` and `sop0` stay as they stand (R135; log entry 7). -/
def State.raise (s : State) (r : Report) : State :=
  { s.emit r with cnt := 0, phase := r.nextPhase }

/-- The consumer takes the held outcome `r`: `out_valid` is cleared, and the other output fields carry no meaning from then on
(R88, I2; log entry 6). -/
def State.handTo (s : State) (r : Report) : State :=
  { s with out := OutReg.unspecified s.free, received := s.received ++ [r], free := s.free + 1 }

/-- A hand-over (R88). A reserved `out_status` is a fault of the environment (R84). -/
def State.handOver (s : State) : Host.Outcome State Fault Refusal :=
  match s.out.report? with
  | some r => .next (s.handTo r)
  | none => .fault .reservedStatus

/-- The core has taken an event (R40). -/
def State.record (s : State) (e : Event) : State := { s with consumed := s.consumed ++ [e] }

/-- The validator drives `chk_ok` (R107). -/
def State.driveChk (s : State) : State := { s with nets := { s.nets with chkOk := chkOk s.buf } }

/-- The decoder drives the quaternion (R122). -/
def State.driveQuat (s : State) : State := { s with nets := { s.nets with quat := quatOf s.buf } }

/-- The decoder drives the gyro vector (R123). -/
def State.driveGyro (s : State) : State := { s with nets := { s.nets with gyro := gyroOf s.buf } }

/-- The decoder drives the accel vector (R124). -/
def State.driveAccel (s : State) : State := { s with nets := { s.nets with accel := accelOf s.buf } }

/-- The normaliser drives its output (R117). -/
def State.driveNorm (s : State) (v : Half) : State := { s with nets := { s.nets with norm := normBits v } }

/-- The nets carry nothing on to the next step (R33). -/
def State.idleNets (s : State) : State := { s with nets := Nets.idle }

/-- The record the decoder's nets show (R125). -/
def Nets.sample (n : Nets) : Sample := sampleOf n.quat n.gyro n.accel

/-- `FRAME_COMPLETE` (R115): validate; if the checksum holds, decode and emit the sample, else raise `ChecksumMismatch`. The
decoder runs only after `chk_ok` (R116). -/
def State.completeFrame (s : State) : State :=
  let v := s.driveChk
  if v.nets.chkOk then
    let d := v.driveQuat.driveGyro.driveAccel
    (d.emit (.sample d.nets.sample)).idleNets
  else (v.raise .checksumMismatch).idleNets

/-- Every register that `RESET` makes unspecified takes a free value; `phase`, `cnt` and `out_valid` take theirs (R153; log
entry 4). -/
def State.restart (s : State) : State :=
  { s with
    phase := .probe
    cnt := 0
    sop0 := Config.freeSop0 s.free
    buf := Config.freeBuf s.free
    out := OutReg.unspecified s.free
    free := s.free + 1 }

end Sys2Proof.Machine
end

