-- ==== Sys2Proof/Machine/FrameOps.lean ====
section
/-! DEFINITION. The meanings of the frame operations (spec 41_validator.md, 42_decoder.md). Each drives its net of the
combinational logic from `buf`; `FRAME_COMPLETE` consumes them (log entry 13). -/

namespace Sys2Proof.Machine

/-- `FRAME_COMPLETE` (R115). -/
def execFrameComplete (s : State) : Host.Outcome State Fault Refusal := .next s.completeFrame

/-- `VALIDATE`: `chk_ok = (S == C)` (R107). -/
def execValidate (s : State) : Host.Outcome State Fault Refusal := .next s.driveChk

/-- `DECODE_QUAT` (R122). -/
def execDecodeQuat (s : State) : Host.Outcome State Fault Refusal := .next s.driveQuat

/-- `DECODE_GYRO` (R123). -/
def execDecodeGyro (s : State) : Host.Outcome State Fault Refusal := .next s.driveGyro

/-- `DECODE_ACCEL` (R124). -/
def execDecodeAccel (s : State) : Host.Outcome State Fault Refusal := .next s.driveAccel

/-- `NORMALIZE`: `N(v)` (R117). -/
def execNormalize (v : Half) (s : State) : Host.Outcome State Fault Refusal := .next (s.driveNorm v)

end Sys2Proof.Machine
end

