-- ==== Sys2Proof/Machine/Framer.lean ====
section
/-! DEFINITION. The meanings of the framer operations (spec 40_framer.md). -/

namespace Sys2Proof.Machine

/-- `PROBE_FIRST`: `sop0 <- b; cnt <- 1` (R93). -/
def execProbeFirst (b : Byte) (s : State) : Host.Outcome State Fault Refusal :=
  .next { s with sop0 := b, cnt := 1 }

/-- `PROBE_MATCH`: `phase <- PAYLOAD; cnt <- 0` (R94). -/
def execProbeMatch (s : State) : Host.Outcome State Fault Refusal :=
  .next { s with phase := .payload, cnt := 0 }

/-- `PROBE_MISS`: `emit(NoSop); cnt <- 0`. Neither byte is kept (R95). -/
def execProbeMiss (_b0 _b1 : Byte) (s : State) : Host.Outcome State Fault Refusal :=
  .next { s.emit .noSop with cnt := 0 }

/-- `PAYLOAD_BYTE`: `buf[i] <- b; cnt <- i + 1` (R96). -/
def execPayloadByte (i : Cnt) (b : Byte) (s : State) : Host.Outcome State Fault Refusal :=
  if h : i.toNat < 22 then .next { s.writeBuf ⟨i.toNat, h⟩ b with cnt := i + 1 }
  else .fault .noSuchBufferByte

/-- `PAYLOAD_LAST`: `buf[21] <- b`, then `FRAME_COMPLETE`, then `phase <- PROBE; cnt <- 0` (R97). -/
def execPayloadLast (b : Byte) (s : State) : Host.Outcome State Fault Refusal :=
  .next { (s.writeBuf 21 b).completeFrame with phase := .probe, cnt := 0 }

/-- `PROBE_END`: `raise ShortRead(PROBE, k)` (R98). -/
def execProbeEnd (k : Cnt) (s : State) : Host.Outcome State Fault Refusal :=
  .next (s.raise (.shortRead .probe k))

/-- `PAYLOAD_END`: `raise ShortRead(PAYLOAD, k)` (R99). -/
def execPayloadEnd (k : Cnt) (s : State) : Host.Outcome State Fault Refusal :=
  .next (s.raise (.shortRead .payload k))

/-- `XPORT_FAIL`: `raise TransportFailure(ph, k)` (R100). -/
def execXportFail (ph : ReadPhase) (k : Cnt) (s : State) : Host.Outcome State Fault Refusal :=
  .next (s.raise (.transportFailure ph k))

/-- `FAILED_HOLD`: every register holds, and the event is not taken: the core is stuck until `RESET` (R101; log entry 8). -/
def execFailedHold (_e : Event) (s : State) : Host.Outcome State Fault Refusal :=
  .next s

end Sys2Proof.Machine
end

