-- ==== Sys2Proof/Machine/Restart.lean ====
section
/-! DEFINITION. The meaning of `RESET` (spec 70_reset_and_hazards.md). -/

namespace Sys2Proof.Machine

/-- `RESET` (R153): no outcome, no stream byte, every other register unspecified. -/
def execReset (s : State) : Host.Outcome State Fault Refusal := .next s.restart

end Sys2Proof.Machine
end

