-- ==== Sys2Proof/Machine/Dispatch.lean ====
section
/-! DEFINITION. One arm per row of spec/opcode_table.json, in the table's order. -/

namespace Sys2Proof.Machine

def exec (i : Instr) (s : State) : Host.Outcome State Fault Refusal :=
  match i with
  | .reset => Sys2Proof.Machine.execReset s
  | .failedHold e => Sys2Proof.Machine.execFailedHold e s
  | .xportFail ph k => Sys2Proof.Machine.execXportFail ph k s
  | .probeMatch => Sys2Proof.Machine.execProbeMatch s
  | .probeMiss b0 b1 => Sys2Proof.Machine.execProbeMiss b0 b1 s
  | .probeFirst b => Sys2Proof.Machine.execProbeFirst b s
  | .probeEnd k => Sys2Proof.Machine.execProbeEnd k s
  | .payloadLast b => Sys2Proof.Machine.execPayloadLast b s
  | .payloadByte n b => Sys2Proof.Machine.execPayloadByte n b s
  | .payloadEnd k => Sys2Proof.Machine.execPayloadEnd k s
  | .frameComplete => Sys2Proof.Machine.execFrameComplete s
  | .validate => Sys2Proof.Machine.execValidate s
  | .decodeQuat => Sys2Proof.Machine.execDecodeQuat s
  | .decodeGyro => Sys2Proof.Machine.execDecodeGyro s
  | .decodeAccel => Sys2Proof.Machine.execDecodeAccel s
  | .normalize v => Sys2Proof.Machine.execNormalize v s

end Sys2Proof.Machine
end

