-- ==== Sys2Proof/Machine/Events.lean ====
section
/-! DEFINITION. The event level, which is the normative model (spec 92_eei_decisions.md D1): the step of one event, the run of
an event program (70_reset_and_hazards.md R168), and the wire formats and packet macros (30_encoding.md R62, R79). -/

namespace Sys2Proof.Machine

/-- The selector of a state and an event (R72). -/
def State.selector (s : State) (e : Event) : Sel := ⟨s.phase.code, s.cnt, e.kind, s.sop0, e.data⟩

/-- Whether the core stays without taking the event: `FAILED_HOLD` alone (R101). -/
def holdsEvent : Instr → Bool
  | .failedHold _ => true
  | .reset => false
  | .xportFail _ _ => false
  | .probeMatch => false
  | .probeMiss _ _ => false
  | .probeFirst _ => false
  | .probeEnd _ => false
  | .payloadLast _ => false
  | .payloadByte _ _ => false
  | .payloadEnd _ => false
  | .frameComplete => false
  | .validate => false
  | .decodeQuat => false
  | .decodeGyro => false
  | .decodeAccel => false
  | .normalize _ => false

/-- An operation performed on an event: its meaning, and the event is taken unless the operation holds it (R40, R101). -/
def perform (i : Instr) (e : Event) (s : State) : Host.Outcome State Fault Refusal :=
  match exec i s with
  | .next t => .next (if holdsEvent i then t else t.record e)
  | .fault r => .fault r
  | .refused r => .refused r

/-- The event-level step `(state, event) -> (state', outcome?)` (R18, R20, R72). -/
def takeEvent (e : Event) (s : State) : Host.Outcome State Fault Refusal :=
  match decode (.sel (s.selector e).word) with
  | .ok i => perform i e s
  | .error _ => .refused .unreachableSelector

/-- How a run of an event program ends (R168). -/
inductive RunEnd where
  /-- Every event has been consumed. -/
  | finished (s : State)
  /-- The core is in `FAILED` and the next event is not `Reset`; the events left are not consumed. -/
  | stuck (s : State) (left : List Event)
  /-- A step faulted. -/
  | faulted (r : Fault)
  /-- A step was refused. -/
  | refused (r : Refusal)
deriving DecidableEq, Repr

/-- The run of an event program from a state (R78, R168). The output register is not looked at: it is invisible at the event
level (D8). -/
def runEvents (s : State) : List Event → RunEnd
  | [] => .finished s
  | e :: es =>
    if s.phase = .failed ∧ e ≠ .reset then .stuck s (e :: es)
    else
      match takeEvent e s with
      | .next t => runEvents t es
      | .fault r => .faulted r
      | .refused r => .refused r

/-- The `Byte` events of a byte listing (R77). -/
def listing (bs : List Byte) : List Event := bs.map .byte

/-- `BE(v)` (R79). -/
def beBytes (v : Half) : List Byte := [v.extractLsb' 8 8, v.extractLsb' 0 8]

/-- `LE(v)` (R79). -/
def leBytes (v : Half) : List Byte := [v.extractLsb' 0 8, v.extractLsb' 8 8]

/-- Format `K`: the marker, then the 22 bytes of the frame (R62). -/
def packet (f : Frame) : List Byte := Config.sop0 :: Config.sop1 :: f.toList

/-- The frame whose eleven fields are given: the byte orders of R79. -/
def frameOf (x : Fields) : Frame :=
  #v[x.a.extractLsb' 8 8, x.a.extractLsb' 0 8, x.b.extractLsb' 8 8, x.b.extractLsb' 0 8,
    x.c.extractLsb' 8 8, x.c.extractLsb' 0 8, x.d.extractLsb' 8 8, x.d.extractLsb' 0 8,
    x.gx.extractLsb' 0 8, x.gx.extractLsb' 8 8, x.gy.extractLsb' 0 8, x.gy.extractLsb' 8 8,
    x.gz.extractLsb' 0 8, x.gz.extractLsb' 8 8, x.ax.extractLsb' 0 8, x.ax.extractLsb' 8 8,
    x.ay.extractLsb' 0 8, x.ay.extractLsb' 8 8, x.az.extractLsb' 0 8, x.az.extractLsb' 8 8,
    x.chk.extractLsb' 0 8, x.chk.extractLsb' 8 8]

/-- `PKT!(…; chk=X)`: the packet of the fields as given (R79). -/
def pktWith (x : Fields) : List Byte := packet (frameOf x)

/-- `PKT(…)`: the packet of the ten data fields with the checksum of R107 computed over them (R79). -/
def pkt (x : Fields) : List Byte := pktWith { x with chk := chkSum (frameOf x) }

/-- How many stream bytes an attempt consumes, by its outcome (R50). -/
def Report.bytes : Report → Nat
  | .noSop => 2
  | .sample _ => 24
  | .checksumMismatch => 24
  | .shortRead .probe k => k.toNat
  | .shortRead .payload k => 2 + k.toNat
  | .transportFailure .probe k => k.toNat
  | .transportFailure .payload k => 2 + k.toNat

/-- How many stream bytes the attempt in progress has consumed, from the position `(phase, cnt)` (R32, R43). -/
def State.attemptBytes (s : State) : Nat :=
  match s.phase with
  | .probe => s.cnt.toNat
  | .payload => 2 + s.cnt.toNat
  | .failed => 0

/-- How many stream bytes a list of events consumes: one per `Byte` event (R40, R41). -/
def streamBytes (es : List Event) : Nat := es.countP fun e => e.kind == 0b00

end Sys2Proof.Machine
end

