-- ==== Sys2Proof/Machine/Ports.lean ====
section
/-! DEFINITION. The port level (spec 30_encoding.md R85 to R88, 60_exceptions.md R139, R141): the outputs, the event of an edge, and
what a rising edge does. -/

namespace Sys2Proof.Machine

/-- `rx_ready = (phase ≠ FAILED) ∧ (out_valid = 0)` (R86). -/
def State.rxReady (s : State) : Bool := decide (s.phase ≠ .failed) && !s.out.valid

/-- `rx_remaining` (R87). -/
def State.rxRemaining (s : State) : Cnt :=
  match s.phase with
  | .probe => 2 - s.cnt
  | .payload => 22 - s.cnt
  | .failed => 0

/-- The 320-bit port `out_sample`: word `j` at bits `[32j+31 : 32j]` (R82). -/
def OutReg.samplePort (o : OutReg) : BitVec 320 :=
  o.sample[9] ++ o.sample[8] ++ o.sample[7] ++ o.sample[6] ++ o.sample[5] ++ o.sample[4] ++ o.sample[3] ++ o.sample[2] ++
    o.sample[1] ++ o.sample[0]

/-- The output ports (R85). -/
structure PortsOut where
  rxReady : Bool
  rxRemaining : Cnt
  outValid : Bool
  outStatus : BitVec 3
  outPhase : BitVec 1
  outCount : Cnt
  outSample : BitVec 320
deriving DecidableEq, Repr

/-- The output ports as functions of the state (R85 to R88). -/
def State.portsOut (s : State) : PortsOut where
  rxReady := s.rxReady
  rxRemaining := s.rxRemaining
  outValid := s.out.valid
  outStatus := s.out.status
  outPhase := s.out.phase
  outCount := s.out.count
  outSample := s.out.samplePort

/-- The event a beat stands for: `Fail` over `End` over the byte (R86, R139). -/
def EdgeIn.event (g : EdgeIn) : Event :=
  if g.rxFail then .fail else if g.rxEnd then .endRead else .byte g.rxData

/-- A rising edge. `rst` comes first, whatever the other inputs (R86, R139; log entry 11). While an outcome is held no event is
taken, and `out_ready` hands it over (R88, R141). Else a presented event selects its operation, which in `FAILED` is
`FAILED_HOLD`, as `rx_ready` is 0 there (R86, R101). With nothing presented every register holds (R152). -/
def edgeStep (g : EdgeIn) (s : State) : Host.Outcome State Fault Refusal :=
  if g.rst then takeEvent .reset s
  else if s.out.valid then
    if g.outReady then s.handOver else .next s
  else if g.rxValid then takeEvent g.event s
  else .next s

/-- An edge at which `rst` is asserted. -/
def EdgeIn.ofReset : EdgeIn := ⟨true, false, 0, false, false, false⟩

/-- An edge that presents an event of the given `kind` and `data` fields of a selector (R72, R86). -/
def EdgeIn.ofSel (sel : Sel) : EdgeIn :=
  match Event.ofFields sel.kind sel.data with
  | .byte b => ⟨false, true, b, false, false, false⟩
  | .endRead => ⟨false, true, 0, true, false, false⟩
  | .fail => ⟨false, true, 0, false, true, false⟩
  | .reset => EdgeIn.ofReset

/-- `s` made to present the selector `sel` at its next edge: the position and `sop0` as the selector has them, no outcome held,
and the event on the inputs (R72; log entry 10). -/
def State.presentSel (s : State) (sel : Sel) : State :=
  { s with
    phase := (Phase.ofCode sel.phase).getD s.phase
    cnt := sel.cnt
    sop0 := sel.sop0
    out := { s.out with valid := false }
    edges := EdgeIn.ofSel sel :: s.edges }

/-- `s` made to complete the frame `f` at its next edge: `f` in the buffer, its last byte on the inputs (R97, R115; log entry 10). -/
def State.presentFrame (s : State) (f : Frame) : State :=
  { s with
    phase := .payload
    cnt := 21
    buf := f
    out := { s.out with valid := false }
    edges := EdgeIn.ofSel ⟨0b01, 21, 0b00, 0, f[21]⟩ :: s.edges }

end Sys2Proof.Machine
end

