-- ==== Sys2Proof/Machine/Step.lean ====
section
/-! DEFINITION. The machine's step: one rising edge (spec 30_encoding.md R85), taken from the edges the environment holds. -/

namespace Sys2Proof.Machine

/-- One rising edge. With no edge left every register holds (R152, I16; log entry 9). -/
def step (s : State) : Host.Outcome State Fault Refusal :=
  match s.edges with
  | [] => .next s
  | g :: rest => edgeStep g { s with edges := rest }

/-- `s` with the operation of a table word presented at its next edge (log entry 10). A word of neither format changes nothing. -/
def State.withFetchWord (s : State) (nbits w : Nat) : State :=
  match codeOfTable nbits w with
  | some (.sel v) => s.presentSel (Sel.ofWord v)
  | some (.frame f) => s.presentFrame (frameOfBits f)
  | none => s

end Sys2Proof.Machine
end

