-- ==== Sys2Proof/Safety.lean ====
section
/-! DEFINITION. What counts as a good state, in the terms the statements use. -/

namespace Sys2Proof.Machine

/-- The ranges of `cnt` in each phase (spec 10_state.md R27). -/
def State.posOk (s : State) : Bool :=
  match s.phase with
  | .probe => decide (s.cnt.toNat < 2)
  | .payload => decide (s.cnt.toNat < 22)
  | .failed => decide (s.cnt = 0)

/-- A held outcome has no reserved status (30_encoding.md R81, R84). -/
def State.heldOk (s : State) : Bool := !s.out.valid || s.out.report?.isSome

/-- The control invariant: the ranges of R27, no reserved status held, and nothing left on the nets (R33). -/
def State.inv (s : State) : Bool := s.posOk && s.heldOk && decide (s.nets = Nets.idle)

/-- The outcome held for the consumer, if any (R35). -/
def State.held (s : State) : List Report := if s.out.valid then s.out.report?.toList else []

/-- What has been emitted has reached the consumer or is held for it, in order (R36, R141). -/
def State.delivered (s : State) : Bool := decide (s.emitted = s.received ++ s.held)

/-- Every stream byte taken belongs to an attempt that has been reported or to the one in progress (20_memory.md R50, R55). -/
def State.tiled (s : State) : Bool :=
  decide (streamBytes s.consumed = (s.emitted.map Report.bytes).sum + s.attemptBytes)

/-- What an outcome report leaves alone (60_exceptions.md R135): the buffer and `sop0` as they stand, and all that is not the core's
position, the output register or the output sequence. -/
def keepsOnReport (s t : State) : Prop :=
  t.sop0 = s.sop0 ∧ t.buf = s.buf ∧ t.nets = s.nets ∧ t.edges = s.edges ∧ t.consumed = s.consumed ∧ t.received = s.received

/-- The output register holds an outcome with these port fields (30_encoding.md R81, R83). -/
def holdsAtPort (t : State) (status : BitVec 3) (phase : BitVec 1) (count : Nat) : Prop :=
  t.out.valid = true ∧ t.out.status = status ∧ t.out.phase = phase ∧ t.out.count.toNat = count

/-- The event an edge delivers to the core in a state, if the core acts on one at that edge (30_encoding.md R86). -/
def delivers (g : EdgeIn) (s : State) (e : Event) : Prop :=
  (g.rst = true ∧ e = .reset) ∨
    (g.rst = false ∧ s.out.valid = false ∧ g.rxValid = true ∧ e = g.event)

/-- The next edge asserts `rst`. -/
def State.nextIsReset (s : State) : Bool :=
  match s.edges with
  | [] => false
  | g :: _ => g.rst

end Sys2Proof.Machine
end

