-- ==== Sys2Proof/Certificates/Slice0/Obligations.lean ====
section
/-! DEFINITION. The statements for the provers. Each docstring names the rules of spec/ it formalises. -/

open Sys2Proof Sys2Proof.Machine

/-! ## The framer operations: what each does, and when it is selected -/

/-- R93. `PROBE_FIRST` stores the byte untested; it is the operation of any `Byte` in `(PROBE, 0)`. -/
def Obligations.ProbeFirstStoresTheByte : Prop :=
  ∀ (s : State) (b : Byte),
    exec (.probeFirst b) s = .next { s with sop0 := b, cnt := 1 } ∧
    (s.phase = .probe → s.cnt = 0 → decode (.sel (s.selector (.byte b)).word) = .ok (.probeFirst b))

/-- R94. `PROBE_MATCH` starts the payload read and changes nothing else; in `(PROBE, 1)` it is selected by a second byte exactly
when both probe bytes are `0x55`. -/
def Obligations.ProbeMatchStartsThePayload : Prop :=
  ∀ s : State,
    exec .probeMatch s = .next { s with phase := .payload, cnt := 0 } ∧
    ∀ b : Byte, s.phase = .probe → s.cnt = 1 →
      (decode (.sel (s.selector (.byte b)).word) = .ok .probeMatch ↔ s.sop0 = 0x55 ∧ b = 0x55)

/-- R95. `PROBE_MISS` reports `NoSop` and keeps neither byte; it is selected by every other probe pair. -/
def Obligations.ProbeMissReportsNoSop : Prop :=
  ∀ (s : State) (b0 b1 : Byte),
    (∃ t, exec (.probeMiss b0 b1) s = .next t ∧ t.phase = s.phase ∧ t.cnt = 0 ∧ keepsOnReport s t ∧
      t.emitted = s.emitted ++ [.noSop] ∧ holdsAtPort t 0b000 0 2) ∧
    (s.phase = .probe → s.cnt = 1 → s.sop0 = b0 → ¬ (b0 = 0x55 ∧ b1 = 0x55) →
      decode (.sel (s.selector (.byte b1)).word) = .ok (.probeMiss b0 b1))

/-- R96. `PAYLOAD_BYTE` writes `buf[i]`, whatever the byte, and moves on to `i + 1`; nothing else changes. -/
def Obligations.PayloadByteWritesTheBuffer : Prop :=
  ∀ (s : State) (i : Cnt) (b : Byte), i.toNat ≤ 20 →
    (∃ t, exec (.payloadByte i b) s = .next t ∧ t.cnt.toNat = i.toNat + 1 ∧
      (∀ j : Fin 22, t.readBuf j = if j.val = i.toNat then b else s.readBuf j) ∧
      t = { s with buf := t.buf, cnt := t.cnt }) ∧
    (s.phase = .payload → s.cnt = i → decode (.sel (s.selector (.byte b)).word) = .ok (.payloadByte i b))

/-- The buffer has no byte beyond offset 21 (R39): a write there stops. The stop is the model's choice (log entry 18); R91 excludes
such a count. -/
def Obligations.PayloadByteBeyondTheBufferStops : Prop :=
  ∀ (s : State) (i : Cnt) (b : Byte), 22 ≤ i.toNat →
    exec (.payloadByte i b) s = .fault .noSuchBufferByte ∧
    (s.phase = .payload → s.cnt = i → decode (.sel (s.selector (.byte b)).word) = .error .cntNeverHeld)

/-- R97, R115. `PAYLOAD_LAST` writes `buf[21]`, reports exactly one outcome of the completed frame, and goes to `(PROBE, 0)`. The
idle nets are the model's (log entry 13). -/
def Obligations.PayloadLastCompletesTheFrame : Prop :=
  ∀ (s : State) (b : Byte),
    (∃ t, exec (.payloadLast b) s = .next t ∧ t.phase = .probe ∧ t.cnt = 0 ∧ t.sop0 = s.sop0 ∧
      (∀ j : Fin 22, t.readBuf j = if j.val = 21 then b else s.readBuf j) ∧
      t.nets = Nets.idle ∧ t.edges = s.edges ∧ t.consumed = s.consumed ∧ t.received = s.received ∧
      ((chkOk t.buf = true ∧ t.emitted = s.emitted ++ [.sample (decodeFrame t.buf)] ∧ holdsAtPort t 0b001 1 22 ∧
          t.out.sample = (decodeFrame t.buf).words) ∨
        (chkOk t.buf = false ∧ t.emitted = s.emitted ++ [.checksumMismatch] ∧ holdsAtPort t 0b011 1 22))) ∧
    (s.phase = .payload → s.cnt = 21 → decode (.sel (s.selector (.byte b)).word) = .ok (.payloadLast b))

/-- R98. `PROBE_END` reports the short probe read and drops its byte. -/
def Obligations.ProbeEndReportsShortRead : Prop :=
  ∀ (s : State) (k : Cnt),
    (∃ t, exec (.probeEnd k) s = .next t ∧ t.phase = .probe ∧ t.cnt = 0 ∧ keepsOnReport s t ∧
      t.emitted = s.emitted ++ [.shortRead .probe k] ∧ holdsAtPort t 0b010 0 k.toNat) ∧
    (s.phase = .probe → s.cnt = k → k.toNat ≤ 1 → decode (.sel (s.selector .endRead).word) = .ok (.probeEnd k))

/-- R99. `PAYLOAD_END` reports the short payload read; neither the validator nor the decoder runs. -/
def Obligations.PayloadEndReportsShortRead : Prop :=
  ∀ (s : State) (k : Cnt),
    (∃ t, exec (.payloadEnd k) s = .next t ∧ t.phase = .probe ∧ t.cnt = 0 ∧ keepsOnReport s t ∧
      t.emitted = s.emitted ++ [.shortRead .payload k] ∧ holdsAtPort t 0b010 1 k.toNat) ∧
    (s.phase = .payload → s.cnt = k → k.toNat ≤ 21 → decode (.sel (s.selector .endRead).word) = .ok (.payloadEnd k))

/-- R100. `XPORT_FAIL` reports the failure of either read and goes to `(FAILED, 0)`, even in `(PAYLOAD, 21)`. -/
def Obligations.XportFailReportsTheFailure : Prop :=
  ∀ (s : State) (ph : ReadPhase) (k : Cnt),
    (∃ t, exec (.xportFail ph k) s = .next t ∧ t.phase = .failed ∧ t.cnt = 0 ∧ keepsOnReport s t ∧
      t.emitted = s.emitted ++ [.transportFailure ph k] ∧
      holdsAtPort t 0b100 (if ph = .payload then 1 else 0) k.toNat) ∧
    (s.phase = (match ph with | .probe => Phase.probe | .payload => Phase.payload) → s.cnt = k → k.toNat < ph.len →
      decode (.sel (s.selector .fail).word) = .ok (.xportFail ph k))

/-- In `FAILED` every event but `Reset` selects `FAILED_HOLD`: the event is not consumed, `rx_ready` is 0, and a run is stuck there
(R101, R168). That `exec` and `takeEvent` answer the unchanged state as a next state, where R101 and I6 give no step, is the model's
choice (log entry 8). -/
def Obligations.FailedHoldTakesNothing : Prop :=
  ∀ (s : State) (e : Event),
    exec (.failedHold e) s = .next s ∧
    (s.phase = .failed → e ≠ .reset →
      decode (.sel (s.selector e).word) = .ok (.failedHold e) ∧ takeEvent e s = .next s ∧ s.rxReady = false ∧
      ∀ es, runEvents s (e :: es) = .stuck s (e :: es))

/-- `RESET`, in any state: the start of a probe read with nothing held and no outcome; no stream byte is touched (R153). Nothing is
said of the registers it leaves unspecified. The last clause, that in `FAILED` no other event changes the state, rests on the model's
choice to answer the unchanged state as a next state there, where R101 and I6 give no step (log entry 8). -/
def Obligations.ResetRestartsTheCore : Prop :=
  ∀ s : State,
    (∃ t, exec .reset s = .next t ∧ t.phase = .probe ∧ t.cnt = 0 ∧ t.out.valid = false ∧ t.emitted = s.emitted ∧
      t.received = s.received ∧ t.consumed = s.consumed ∧ t.edges = s.edges ∧ t.nets = s.nets) ∧
    decode (.sel (s.selector .reset).word) = .ok .reset ∧
    ∀ e, s.phase = .failed → takeEvent e s ≠ .next s → e = .reset

/-! ## The frame operations -/

/-- `FRAME_COMPLETE` emits the decoded sample if the checksum holds and raises `ChecksumMismatch` if not (R115). The clause that the
nets are idle afterwards is the model's choice (log entry 13). -/
def Obligations.FrameCompleteClassifiesTheFrame : Prop :=
  ∀ s : State,
    (chkOk s.buf = true → ∃ t, exec .frameComplete s = .next t ∧ t.emitted = s.emitted ++ [.sample (decodeFrame s.buf)] ∧
      holdsAtPort t 0b001 1 22 ∧ t.out.sample = (decodeFrame s.buf).words ∧
      t = { s with emitted := t.emitted, out := t.out, free := t.free, nets := Nets.idle }) ∧
    (chkOk s.buf = false → ∃ t, exec .frameComplete s = .next t ∧ t.emitted = s.emitted ++ [.checksumMismatch] ∧
      holdsAtPort t 0b011 1 22 ∧
      t = { s with emitted := t.emitted, out := t.out, free := t.free, nets := Nets.idle, phase := .probe, cnt := 0 })

/-- R107. `VALIDATE` compares the 16-bit sum of the marker and the 20 data bytes with the little-endian checksum field, and drives
`chk_ok` alone. -/
def Obligations.ValidateComparesTheChecksum : Prop :=
  ∀ s : State, ∃ t, exec .validate s = .next t ∧
    t.nets.chkOk = decide
      ((0x55 + 0x55 + ∑ i : Fin 20, (s.readBuf ⟨i.val, by omega⟩).toNat) % 2 ^ 16 =
        (s.readBuf 21).toNat * 256 + (s.readBuf 20).toNat) ∧
    t = { s with nets := { s.nets with chkOk := t.nets.chkOk } }

/-- R122. `DECODE_QUAT`: big-endian operands, assigned `qz, qy, qx, qw`. -/
def Obligations.DecodeQuatPermutesTheAxes : Prop :=
  ∀ s : State, ∃ t, exec .decodeQuat s = .next t ∧
    t.nets.quat.z = normBits (s.readBuf 0 ++ s.readBuf 1) ∧
    t.nets.quat.y = normBits (s.readBuf 2 ++ s.readBuf 3) ∧
    t.nets.quat.x = normBits (s.readBuf 4 ++ s.readBuf 5) ∧
    t.nets.quat.w = normBits (s.readBuf 6 ++ s.readBuf 7) ∧
    t = { s with nets := { s.nets with quat := t.nets.quat } }

/-- R123. `DECODE_GYRO`: little-endian operands, in wire order. -/
def Obligations.DecodeGyroIsLittleEndian : Prop :=
  ∀ s : State, ∃ t, exec .decodeGyro s = .next t ∧
    t.nets.gyro.x = normBits (s.readBuf 9 ++ s.readBuf 8) ∧
    t.nets.gyro.y = normBits (s.readBuf 11 ++ s.readBuf 10) ∧
    t.nets.gyro.z = normBits (s.readBuf 13 ++ s.readBuf 12) ∧
    t = { s with nets := { s.nets with gyro := t.nets.gyro } }

/-- R124. `DECODE_ACCEL`: little-endian operands, in wire order. -/
def Obligations.DecodeAccelIsLittleEndian : Prop :=
  ∀ s : State, ∃ t, exec .decodeAccel s = .next t ∧
    t.nets.accel.x = normBits (s.readBuf 15 ++ s.readBuf 14) ∧
    t.nets.accel.y = normBits (s.readBuf 17 ++ s.readBuf 16) ∧
    t.nets.accel.z = normBits (s.readBuf 19 ++ s.readBuf 18) ∧
    t = { s with nets := { s.nets with accel := t.nets.accel } }

/-- R117, R118. `NORMALIZE` drives the binary32 number that is exactly `v / 32768`, for every 16-bit integer `v`. -/
def Obligations.NormalizeIsExact : Prop :=
  ∀ (s : State) (v : Half), ∃ t, exec (.normalize v) s = .next t ∧
    f32Value t.nets.norm = some ((v.toInt : ℚ) / 32768) ∧
    t = { s with nets := { s.nets with norm := t.nets.norm } }

/-- R120. The range of `N` is `[-1, 32767/32768]`, both ends reached; `-1` is reached only by `-32768`, and `+1` never. -/
def Obligations.NormalizeRange : Prop :=
  f32Value (normBits 0x8000) = some (-1) ∧ f32Value (normBits 0x7FFF) = some (32767 / 32768) ∧
  ∀ v : Half, ∃ q : ℚ, f32Value (normBits v) = some q ∧ -1 ≤ q ∧ q ≤ 32767 / 32768 ∧ q ≠ 1 ∧
    (q = -1 ↔ v.toInt = -32768) ∧ (normBits v = 0xBF800000 ↔ v.toInt = -32768)

/-- R121. `N(0)` is `+0.0`, `-0.0` never appears, nor a NaN, an infinity or a subnormal; `N` is injective and its value gives the
integer back. -/
def Obligations.NormalizeIsInjectiveAndNormal : Prop :=
  normBits 0 = 0 ∧
  (∀ v : Half, normBits v ≠ 0x80000000 ∧ f32Exp (normBits v) ≠ 255 ∧ (f32Exp (normBits v) = 0 → normBits v = 0)) ∧
  (∀ u v : Half, normBits u = normBits v → u = v) ∧
  (∀ v : Half, ∃ q : ℚ, f32Value (normBits v) = some q ∧ (v.toInt : ℚ) = q * 32768)

/-- R109. The unreduced sum lies in `0x00AA..0x1496`, so the reduction never changes it. -/
def Obligations.ChecksumRange : Prop :=
  ∀ f : Frame, 0x00AA ≤ rawSum f ∧ rawSum f ≤ 0x1496 ∧ (chkSum f).toNat = rawSum f

/-- R110. Two frames that differ in exactly one of the 20 data bytes have different sums, so if one validates the other does not. -/
def Obligations.SingleByteChangeIsCaught : Prop :=
  ∀ (f : Frame) (i : Fin 22) (b : Byte), i.val < 20 → b ≠ f[i.val] →
    chkSum (f.set i.val b) ≠ chkSum f ∧ (chkOk f = true → chkOk (f.set i.val b) = false)

/-- R112. A change of one checksum byte alone changes `C` and not `S`, so a valid frame so changed never validates. -/
def Obligations.ChecksumByteChangeIsCaught : Prop :=
  ∀ (f : Frame) (i : Fin 22) (b : Byte), 20 ≤ i.val → b ≠ f[i.val] →
    chkField (f.set i.val b) ≠ chkField f ∧ chkSum (f.set i.val b) = chkSum f ∧
      (chkOk f = true → chkOk (f.set i.val b) = false)

/-- R111. What the checksum does not detect: byte changes whose sum is 0, a reordering of the 20 data bytes, and a change of the data
with a matching change of the checksum field. -/
def Obligations.UndetectedChangesValidate : Prop :=
  ∀ f g : Frame, chkOk f = true →
    (((f.toList.take 20).map BitVec.toNat).sum = ((g.toList.take 20).map BitVec.toNat).sum → f[20] = g[20] → f[21] = g[21] →
      chkOk g = true) ∧
    ((f.toList.take 20).Perm (g.toList.take 20) → f[20] = g[20] → f[21] = g[21] → chkOk g = true) ∧
    (chkField g = chkField f + (chkSum g - chkSum f) → chkOk g = true)

/-- R64. The frame as one 176-bit value: each byte, and each field, at its bits. -/
def Obligations.BitFormAgreesWithByteForm : Prop :=
  ∀ f : Frame,
    (∀ i : Fin 22, (frameBits f).extractLsb' (168 - 8 * i.val) 8 = f[i.val]) ∧
    fieldsOf f = fieldsOfBits (frameBits f) ∧ frameOfBits (frameBits f) = f

/-! ## Outcomes and ports -/

/-- R83, R81. The port fields of every outcome, and that a consumer reads the outcome back from them; no reserved code appears. -/
def Obligations.OutcomeEncodingReadsBack : Prop :=
  ∀ (r : Report) (n : Nat),
    (OutReg.hold r n).report? = some r ∧ (OutReg.hold r n).status.toNat ≤ 4 ∧
    (OutReg.hold r n).status = (match r with
      | .noSop => 0b000 | .sample _ => 0b001 | .shortRead _ _ => 0b010 | .checksumMismatch => 0b011 | .transportFailure _ _ => 0b100) ∧
    (OutReg.hold r n).phase = (match r with
      | .noSop => 0 | .sample _ => 1 | .checksumMismatch => 1
      | .shortRead ph _ => if ph = .probe then 0 else 1
      | .transportFailure ph _ => if ph = .probe then 0 else 1) ∧
    (OutReg.hold r n).count = (match r with
      | .noSop => 2 | .sample _ => 22 | .checksumMismatch => 22 | .shortRead _ k => k | .transportFailure _ k => k)

/-- R82. Word `j` of the sample stands at bits `[32j+31 : 32j]` of `out_sample`, in the order of the record. -/
def Obligations.SampleWordsStandInOrderAtThePort : Prop :=
  ∀ (w : Sample) (n : Nat),
    (∀ j : Fin 10, (OutReg.hold (.sample w) n).samplePort.extractLsb' (32 * j.val) 32 = w.words[j.val]) ∧
    w.words.toList = [w.qx, w.qy, w.qz, w.qw, w.gyroX, w.gyroY, w.gyroZ, w.accelX, w.accelY, w.accelZ]

/-- R87. `rx_remaining` in each phase. -/
def Obligations.RemainingCountsTheRead : Prop :=
  ∀ s : State, s.posOk = true →
    (s.phase = .probe → s.rxRemaining.toNat = 2 - s.cnt.toNat ∧ 1 ≤ s.rxRemaining.toNat) ∧
    (s.phase = .payload → s.rxRemaining.toNat = 22 - s.cnt.toNat ∧ 1 ≤ s.rxRemaining.toNat) ∧
    (s.phase = .failed → s.rxRemaining = 0)

/-- R139. The priority of the port inputs: `rst`, then `rx_fail`, then `rx_end`, then the byte. An edge with `rst = 1` is a `Reset`,
whatever the other inputs. -/
def Obligations.PortPriority : Prop :=
  ∀ (g : EdgeIn) (s : State),
    (g.rst = true → edgeStep g s = edgeStep EdgeIn.ofReset s ∧ edgeStep g s = takeEvent .reset s) ∧
    (g.rst = false → s.rxReady = true → g.rxValid = true →
      (g.rxFail = true → edgeStep g s = takeEvent .fail s) ∧
      (g.rxFail = false → g.rxEnd = true → edgeStep g s = takeEvent .endRead s) ∧
      (g.rxFail = false → g.rxEnd = false → edgeStep g s = takeEvent (.byte g.rxData) s))

/-- R86. `rx_ready`, and what an edge does from a good state: it takes a `Reset` at `rst = 1`, whatever the other inputs; the event
presented, by its priority, at a beat; and otherwise none. -/
def Obligations.BeatsAreTakenExactlyWhenReady : Prop :=
  ∀ (s : State) (g : EdgeIn) (rest : List EdgeIn), s.inv = true → s.edges = g :: rest →
    (s.rxReady = true ↔ s.phase ≠ .failed ∧ s.out.valid = false) ∧
    ∃ t, step s = .next t ∧ t.edges = rest ∧
      (g.rst = true → t.consumed = s.consumed ++ [.reset]) ∧
      (g.rst = false → g.rxValid = true → s.rxReady = true →
        t.consumed = s.consumed ++ [if g.rxFail then .fail else if g.rxEnd then .endRead else .byte g.rxData]) ∧
      (g.rst = false → (g.rxValid = false ∨ s.rxReady = false) → t.consumed = s.consumed)

/-- R88, R141. A hand-over clears `out_valid` and gives the held outcome to the consumer; until then no event is taken and the
outcome stays held. What the other output fields hold afterwards is not said. -/
def Obligations.HeldOutcomeWaitsForTheConsumer : Prop :=
  ∀ (s : State) (g : EdgeIn) (rest : List EdgeIn), s.edges = g :: rest → g.rst = false → s.out.valid = true →
    (g.outReady = false → step s = .next { s with edges := rest }) ∧
    (g.outReady = true → ∀ r, s.out.report? = some r →
      ∃ t, step s = .next t ∧ t.out.valid = false ∧ t.received = s.received ++ [r] ∧
        t = { s with edges := rest, out := t.out, received := t.received, free := t.free })

/-- R84. A consumer that finds a reserved `out_status` stops: the fault of the environment that the rule asks for. -/
def Obligations.ReservedStatusIsAFault : Prop :=
  ∀ (s : State) (g : EdgeIn) (rest : List EdgeIn), s.edges = g :: rest → g.rst = false → s.out.valid = true →
    g.outReady = true → 5 ≤ s.out.status.toNat → step s = .fault .reservedStatus

/-- R152. With no event arriving every register holds: an edge that presents nothing, with nothing to hand over, or no edge left. That
a step with no edge left answers the same state is the model's choice (log entry 9). -/
def Obligations.IdleEdgeHoldsEveryRegister : Prop :=
  ∀ s : State,
    (s.edges = [] → step s = .next s) ∧
    ∀ g rest, s.edges = g :: rest → g.rst = false → g.rxValid = false → (s.out.valid = false ∨ g.outReady = false) →
      step s = .next { s with edges := rest }

/-! ## Selection and encoding -/

/-- The step at an edge that delivers an event is the decoded operation's meaning, after which the event counts as taken, unless the
operation is `FAILED_HOLD`. That an edge is the step, and that a held event's step answers a next state, are the model's choices (log
entries 8, 9). -/
def Obligations.StepRunsTheSelectedOperation : Prop :=
  ∀ (s : State) (g : EdgeIn) (rest : List EdgeIn) (e : Event) (i : Instr),
    s.edges = g :: rest → delivers g s e → decode (.sel (s.selector e).word) = .ok i →
    (step s = match exec i { s with edges := rest } with
      | .next t => .next (if holdsEvent i then t else { t with consumed := t.consumed ++ [e] })
      | .fault r => .fault r
      | .refused r => .refused r) ∧
    (holdsEvent i = true ↔ ∃ e', i = .failedHold e')

/-- Words written out from R72 and the opcode table decode to the operations they stand for (the words of vectors V-F1, V-P2 and
V-P5 among them). -/
def Obligations.WrittenWordsDecode : Prop :=
  decode (.sel 0x0030000) = .ok .reset ∧
  decode (.sel 0x1000055) = .ok (.failedHold (.byte 0x55)) ∧
  decode (.sel 0x08A0000) = .ok (.xportFail .payload 2) ∧
  decode (.sel 0x0045555) = .ok .probeMatch ∧
  decode (.sel 0x004B708) = .ok (.probeMiss 0xB7 0x08) ∧
  decode (.sel 0x0000012) = .ok (.probeFirst 0x12) ∧
  decode (.sel 0x0055500) = .ok (.probeEnd 1) ∧
  decode (.sel 0x0D40008) = .ok (.payloadLast 0x08) ∧
  decode (.sel 0x0D0007E) = .ok (.payloadByte 20 0x7E) ∧
  decode (.sel 0x0D50000) = .ok (.payloadEnd 21) ∧
  decode (.sel 0x1800000) = .error .phaseNeverHeld ∧
  decode (.sel 0x0080000) = .error .cntNeverHeld

/-- Every word the encoder writes for a well-formed operation decodes to it, at every value of every operand; every operation that
has words of its own (all but `VALIDATE`, `DECODE_*` and `NORMALIZE`, log entry 14) is written. -/
def Obligations.DecodeEncodeAgree : Prop :=
  ∀ i : Instr,
    (i.wellFormed = true → ∀ c, encode i = some c → decode c = .ok i) ∧
    (encode i = none ↔ i.op ∈ [Op.validate, Op.decodeQuat, Op.decodeGyro, Op.decodeAccel, Op.normalize])

/-- The decoder agrees with the opcode table (R72, R73): what it reads from a word is well formed and stands in the row of the lowest
priority number that matches; every word within the phases and counts of R91 decodes, and every word of kind `Reset` in a phase that
is held decodes to `RESET`, at any count. It refuses the words of phase `11` (R75), and the words of another kind than `Reset` with a
count that their read never reaches. Refusing those that a row's mask matches is the model's choice (log entry 12), and so is the one
operation of a frame (log entry 14). -/
def Obligations.DecodeAgreesWithTheOpcodeTable : Prop :=
  (∀ (w : BitVec 25) (i : Instr), decode (.sel w) = .ok i → rowOf (.sel w) = some i.op ∧ i.wellFormed = true) ∧
  (∀ s : Sel, s.phase ≠ 0b11 → (s.phase = 0b00 → s.cnt.toNat ≤ 1) → (s.phase = 0b01 → s.cnt.toNat ≤ 21) →
    ∃ i, decode (.sel s.word) = .ok i) ∧
  (∀ s : Sel, s.phase ≠ 0b11 → s.kind = 0b11 → decode (.sel s.word) = .ok .reset) ∧
  (∀ s : Sel, s.phase = 0b11 → decode (.sel s.word) = .error .phaseNeverHeld) ∧
  (∀ s : Sel, s.kind ≠ 0b11 → (s.phase = 0b00 ∧ 2 ≤ s.cnt.toNat ∨ s.phase = 0b01 ∧ 22 ≤ s.cnt.toNat) →
    decode (.sel s.word) = .error .cntNeverHeld) ∧
  (∀ f : BitVec 176, rowOf (.frame f) = some .frameComplete ∧ decode (.frame f) = .ok .frameComplete)

/-- A table word placed with `withFetchWord` is what the next step runs: a selector word's operation, on the state that the word
describes; for a frame, the `PAYLOAD_LAST` that completes it, with the frame in the buffer and the outcome `FRAME_COMPLETE` gives it.
The placing and the lengths of the words are the model's choices (log entries 10, 14, 23). -/
def Obligations.PlacedWordRunsNext : Prop :=
  ∀ (s : State) (nbits w : Nat),
    (17 < nbits → nbits ≤ 32 → ∀ i, decodeTableWord nbits w = some i →
      step (s.withFetchWord nbits w) =
        perform i (Event.ofFields (Sel.ofWord (BitVec.ofNat 25 w)).kind (Sel.ofWord (BitVec.ofNat 25 w)).data)
          { s.withFetchWord nbits w with edges := s.edges }) ∧
    ((nbits ≤ 17 ∨ 32 < nbits) → w < 2 ^ 176 → ∀ f, f = frameOfBits (BitVec.ofNat 176 w) →
      decodeTableWord nbits w = some .frameComplete ∧
      step (s.withFetchWord nbits w) =
        perform (.payloadLast f[21]) (.byte f[21]) { s.withFetchWord nbits w with edges := s.edges } ∧
      ∃ t, step (s.withFetchWord nbits w) = .next t ∧ t.buf = f ∧ t.phase = .probe ∧ t.cnt = 0 ∧
        t.emitted = s.emitted ++ [if chkOk f then .sample (decodeFrame f) else .checksumMismatch])

/-! ## The whole machine -/

/-- After reset: the start of a probe read, nothing held, nothing reported (R38, R154), and the invariants hold. That the nets are
idle, which the control invariant says, is the model's choice (log entry 13). -/
def Obligations.AfterReset : Prop :=
  State.reset.phase = .probe ∧ State.reset.cnt = 0 ∧ State.reset.out.valid = false ∧ State.reset.emitted = [] ∧
  State.reset.inv = true ∧ State.reset.delivered = true ∧ State.reset.tiled = true

/-- Every step keeps the ranges of `cnt` in each phase (R27) and holds no reserved status (R84). The invariant's third part, that the
nets are idle between steps, is the model's choice (log entry 13; R33 speaks of `chk_ok` alone), and so is what a step is when no edge
is left, or in `FAILED` (log entries 8, 9). -/
def Obligations.EveryStepKeepsTheInvariant : Prop :=
  ∀ s t : State, s.inv = true → step s = .next t → t.inv = true

/-- From a good state no step stops: outside `FAILED` every event has its effect (R24), an edge without a beat holds the registers
(R86, R152), and a hand-over finds no reserved status (R84). That an event in `FAILED`, where R24 gives no step, and a step with no
edge left answer the state as it stands are the model's choices (log entries 8, 9). -/
def Obligations.GoodStatesNeverStop : Prop :=
  ∀ s : State, s.inv = true → ∃ t, step s = .next t

/-- Outside `FAILED` every event is taken, and in `FAILED` `Reset` is (R24). That another event in `FAILED`, where R24 gives no step,
answers the unchanged state as a next state is the model's choice (log entry 8). -/
def Obligations.EventStepIsTotal : Prop :=
  ∀ (s : State) (e : Event), s.posOk = true →
    (s.phase ≠ .failed ∨ e = .reset → ∃ t, takeEvent e s = .next t ∧ t.consumed = s.consumed ++ [e]) ∧
    (s.phase = .failed → e ≠ .reset → takeEvent e s = .next s)

/-- R36, R141, R156. Unless `rst` is asserted while an outcome is held, what has been emitted is, in order, what the consumer has
received, followed by the outcome held for it. -/
def Obligations.PortDeliversTheOutcomeSequence : Prop :=
  ∀ s t : State, s.inv = true → s.delivered = true → (s.nextIsReset = true → s.out.valid = false) →
    step s = .next t → t.delivered = true

/-- R50, R55. Without `Reset`, the stream bytes taken are those of the attempts reported, each with the count of its outcome, and
those of the attempt in progress. -/
def Obligations.AttemptsTileTheStream : Prop :=
  ∀ s t : State, s.inv = true → s.tiled = true → s.nextIsReset = false → step s = .next t → t.tiled = true

/-- R92. No step emits more than one outcome. -/
def Obligations.AtMostOneOutcomePerStep : Prop :=
  ∀ s t : State, step s = .next t → ∃ l, t.emitted = s.emitted ++ l ∧ l.length ≤ 1

/-- R106, R116. A sample is emitted only by the step that takes the 22nd payload byte, only from a frame whose checksum holds, and is
that frame's decode. -/
def Obligations.SamplesComeFromValidFramesOnly : Prop :=
  ∀ (s t : State) (w : Sample), s.inv = true → step s = .next t → t.emitted = s.emitted ++ [.sample w] →
    s.phase = .payload ∧ s.cnt = 21 ∧
      ∃ b, t.consumed = s.consumed ++ [.byte b] ∧ chkOk (s.buf.set 21 b) = true ∧ w = decodeFrame (s.buf.set 21 b)

/-- R137, R143. A step from outside `FAILED` enters it exactly when it reports a transport failure. Every outcome leaves `cnt` at 0, a
transport failure leaves the core in `FAILED`, and every other outcome leaves it at the start of the next attempt. -/
def Obligations.OutcomesDecideWhereTheCoreGoes : Prop :=
  ∀ s t : State, s.inv = true → step s = .next t →
    (s.phase ≠ .failed → (t.phase = .failed ↔ ∃ ph k, t.emitted = s.emitted ++ [.transportFailure ph k])) ∧
    (∀ ph k, t.emitted = s.emitted ++ [.transportFailure ph k] → t.phase = .failed ∧ t.cnt = 0) ∧
    (∀ r, t.emitted = s.emitted ++ [r] → (∀ ph k, r ≠ .transportFailure ph k) → t.phase = .probe ∧ t.cnt = 0)

/-- R144, R165. No number of edges without `rst` takes the core out of `FAILED`, makes it take an event or emit an outcome. That the
steps go on there, with the state held, is the model's choice (log entries 8, 9). -/
def Obligations.OnlyResetLeavesFailed : Prop :=
  ∀ (n : Nat) (s t : State), s.phase = .failed → (∀ g ∈ s.edges, g.rst = false) →
    Host.Core.run Sys2Proof.core n s = .next t → t.phase = .failed ∧ t.consumed = s.consumed ∧ t.emitted = s.emitted

/-- R102. During a payload read every byte is data: fewer bytes than the read still asks for are stored one by one, and nothing is
reported, whatever they are. -/
def Obligations.PayloadBytesAreNotExamined : Prop :=
  ∀ (bs : List Byte) (s : State), s.phase = .payload → s.cnt.toNat + bs.length ≤ 21 →
    ∃ t, runEvents s (listing bs) = .finished t ∧ t.phase = .payload ∧ t.cnt.toNat = s.cnt.toNat + bs.length ∧
      t.emitted = s.emitted ∧
      ∀ j : Fin 22, t.readBuf j =
        if s.cnt.toNat ≤ j.val then (bs[j.val - s.cnt.toNat]?).getD (s.readBuf j) else s.readBuf j

/-- R62, R90, R97, R115. From the start of an attempt, any packet is captured whole and ends in exactly one outcome: the sample of
its frame if the checksum holds, else `ChecksumMismatch`; the core is back at the start of an attempt. -/
def Obligations.AlignedPacketIsDecoded : Prop :=
  ∀ (s : State) (f : Frame), s.phase = .probe → s.cnt = 0 →
    ∃ t, runEvents s (listing (packet f)) = .finished t ∧ t.phase = .probe ∧ t.cnt = 0 ∧ t.buf = f ∧
      t.emitted = s.emitted ++ [if chkOk f then .sample (decodeFrame f) else .checksumMismatch]

/-- R79, R129. The packet of ten integers, with the checksum computed over them, decodes to those integers: each word of the sample
is the normaliser's of its integer. -/
def Obligations.PacketRoundTrip : Prop :=
  ∀ (s : State) (x : Fields), s.phase = .probe → s.cnt = 0 →
    ∃ t, runEvents s (listing (pkt x)) = .finished t ∧ t.phase = .probe ∧ t.cnt = 0 ∧
      t.emitted = s.emitted ++ [.sample
        { qx := normBits x.c, qy := normBits x.b, qz := normBits x.a, qw := normBits x.d,
          gyroX := normBits x.gx, gyroY := normBits x.gy, gyroZ := normBits x.gz,
          accelX := normBits x.ax, accelY := normBits x.ay, accelZ := normBits x.az }]

/-- R103. An attempt whose first two bytes are not the marker ends with `NoSop` and captures nothing. -/
def Obligations.OtherPairsYieldNoSop : Prop :=
  ∀ (s : State) (b0 b1 : Byte), s.phase = .probe → s.cnt = 0 → ¬ (b0 = 0x55 ∧ b1 = 0x55) →
    ∃ t, runEvents s (listing [b0, b1]) = .finished t ∧ t.phase = .probe ∧ t.cnt = 0 ∧ t.buf = s.buf ∧
      t.emitted = s.emitted ++ [.noSop]

/-- R30, R31, R168. What `sop0`, `buf`, the output register and every other leftover hold at the start of a read, or in `FAILED`, is
never observed: how a run ends, the events it leaves, its outcomes and its final position depend on its events alone. -/
def Obligations.LeftoversAreNeverObserved : Prop :=
  ∀ (es : List Event) (s₁ s₂ : State), s₁.cnt = 0 → s₂.cnt = 0 → s₁.phase = s₂.phase →
    (∀ t₁, runEvents s₁ es = .finished t₁ →
      ∃ t₂ l, runEvents s₂ es = .finished t₂ ∧ t₂.phase = t₁.phase ∧ t₂.cnt = t₁.cnt ∧
        t₁.emitted = s₁.emitted ++ l ∧ t₂.emitted = s₂.emitted ++ l) ∧
    (∀ t₁ left, runEvents s₁ es = .stuck t₁ left →
      ∃ t₂ l, runEvents s₂ es = .stuck t₂ left ∧ t₂.phase = t₁.phase ∧ t₂.cnt = t₁.cnt ∧
        t₁.emitted = s₁.emitted ++ l ∧ t₂.emitted = s₂.emitted ++ l)

/-- R158, in part. While only bytes arrive, attempts keep the parity of the stream position they start at: after `n` bytes from the
start of an attempt, `cnt` has the parity of `n`. -/
def Obligations.BytesKeepTheAttemptParity : Prop :=
  ∀ (bs : List Byte) (s : State), s.phase = .probe → s.cnt = 0 →
    ∃ t, runEvents s (listing bs) = .finished t ∧ t.phase ≠ .failed ∧ t.cnt.toNat % 2 = bs.length % 2
end

