-- ==== Sys2Proof/Laws/Decode.lean ====
section
/-! SUPPORT. The selector word and its fields. -/

namespace Sys2Proof

/-- The fields read back from the word are the fields. -/
@[simp] theorem Sel.ofWord_word (s : Sel) : Sel.ofWord s.word = s := by
  obtain ⟨ph, c, k, o, d⟩ := s
  simp only [Sel.ofWord, Sel.word, Sel.mk.injEq]
  refine ⟨?_, ?_, ?_, ?_, ?_⟩ <;>
  · ext i hi
    simp only [BitVec.getElem_extractLsb', BitVec.getLsbD_append]
    interval_cases i <;> simp

/-- Decoding the word of a selector is decoding the selector. -/
@[simp] theorem decode_sel_word (s : Sel) : decode (.sel s.word) = decodeSel s := by
  simp only [decode, Sel.ofWord_word]

/-- A mask whose low 16 bits are 0 looks at the upper bits only. -/
theorem and_shiftLeft_sixteen (x m : Nat) : x &&& (m <<< 16) = ((x >>> 16) &&& m) <<< 16 := by
  refine Nat.eq_of_testBit_eq fun i => ?_
  simp only [Nat.testBit_and, Nat.testBit_shiftLeft, Nat.testBit_shiftRight]
  by_cases h : 16 ≤ i
  · simp [h]
  · simp [h]

/-- The upper nine bits of a selector word: phase, count and kind. -/
theorem Sel.word_shiftRight (s : Sel) : s.word.toNat >>> 16 = (s.phase ++ s.cnt ++ s.kind).toNat := by
  have h : s.word = (s.phase ++ s.cnt ++ s.kind) ++ (s.sop0 ++ s.data) := by
    unfold Sel.word
    ext i hi
    simp only [BitVec.getElem_append]
    grind
  rw [h, BitVec.toNat_append, Nat.shiftLeft_eq, ← Nat.shiftLeft_eq]
  rw [Nat.shiftRight_or_distrib]
  have hlt : (s.sop0 ++ s.data).toNat < 2 ^ 16 := (s.sop0 ++ s.data).isLt
  rw [Nat.shiftRight_eq_div_pow (s.sop0 ++ s.data).toNat, Nat.div_eq_of_lt hlt, Nat.or_zero, Nat.shiftLeft_shiftRight]

/-- What a row with such a mask asks of a selector word. -/
theorem Sel.word_and (s : Sel) (m : Nat) :
    s.word.toNat &&& (m <<< 16) = ((s.phase ++ s.cnt ++ s.kind).toNat &&& m) <<< 16 := by
  rw [and_shiftLeft_sixteen, Sel.word_shiftRight]

/-! `wellFormed`, constructor by constructor -/

@[simp] theorem ReadPhase.len_probe : ReadPhase.probe.len = 2 := rfl
@[simp] theorem ReadPhase.len_payload : ReadPhase.payload.len = 22 := rfl
@[simp] theorem wellFormed_reset : Instr.reset.wellFormed = true := rfl
@[simp] theorem wellFormed_failedHold (e : Event) : (Instr.failedHold e).wellFormed = decide (e ≠ .reset) := rfl
@[simp] theorem wellFormed_xportFail (ph : ReadPhase) (k : Cnt) :
    (Instr.xportFail ph k).wellFormed = decide (k.toNat < ph.len) := rfl
@[simp] theorem wellFormed_probeMatch : Instr.probeMatch.wellFormed = true := rfl
@[simp] theorem wellFormed_probeMiss (b0 b1 : Byte) :
    (Instr.probeMiss b0 b1).wellFormed = !(b0 == Config.sop0 && b1 == Config.sop1) := rfl
@[simp] theorem wellFormed_probeFirst (b : Byte) : (Instr.probeFirst b).wellFormed = true := rfl
@[simp] theorem wellFormed_probeEnd (k : Cnt) : (Instr.probeEnd k).wellFormed = decide (k.toNat < 2) := rfl
@[simp] theorem wellFormed_payloadLast (b : Byte) : (Instr.payloadLast b).wellFormed = true := rfl
@[simp] theorem wellFormed_payloadByte (i : Cnt) (b : Byte) :
    (Instr.payloadByte i b).wellFormed = decide (i.toNat + 1 < 22) := rfl
@[simp] theorem wellFormed_payloadEnd (k : Cnt) : (Instr.payloadEnd k).wellFormed = decide (k.toNat < 22) := rfl

end Sys2Proof
end

