-- ==== Sys2Proof/Laws/State.lean ====
section
/-! SUPPORT. What each update of the state does to each field: one lemma per field per update, each true by unfolding, so that no
later proof unfolds a record update. -/

namespace Sys2Proof.Machine

/-! `State.emit` -/

@[simp] theorem State.emit_phase (s : State) (r : Report) : (s.emit r).phase = s.phase := rfl
@[simp] theorem State.emit_cnt (s : State) (r : Report) : (s.emit r).cnt = s.cnt := rfl
@[simp] theorem State.emit_sop0 (s : State) (r : Report) : (s.emit r).sop0 = s.sop0 := rfl
@[simp] theorem State.emit_buf (s : State) (r : Report) : (s.emit r).buf = s.buf := rfl
@[simp] theorem State.emit_out (s : State) (r : Report) : (s.emit r).out = OutReg.hold r s.free := rfl
@[simp] theorem State.emit_nets (s : State) (r : Report) : (s.emit r).nets = s.nets := rfl
@[simp] theorem State.emit_edges (s : State) (r : Report) : (s.emit r).edges = s.edges := rfl
@[simp] theorem State.emit_consumed (s : State) (r : Report) : (s.emit r).consumed = s.consumed := rfl
@[simp] theorem State.emit_emitted (s : State) (r : Report) : (s.emit r).emitted = s.emitted ++ [r] := rfl
@[simp] theorem State.emit_received (s : State) (r : Report) : (s.emit r).received = s.received := rfl
@[simp] theorem State.emit_free (s : State) (r : Report) : (s.emit r).free = s.free + 1 := rfl

/-! `State.raise` -/

@[simp] theorem State.raise_phase (s : State) (r : Report) : (s.raise r).phase = r.nextPhase := rfl
@[simp] theorem State.raise_cnt (s : State) (r : Report) : (s.raise r).cnt = 0 := rfl
@[simp] theorem State.raise_sop0 (s : State) (r : Report) : (s.raise r).sop0 = s.sop0 := rfl
@[simp] theorem State.raise_buf (s : State) (r : Report) : (s.raise r).buf = s.buf := rfl
@[simp] theorem State.raise_out (s : State) (r : Report) : (s.raise r).out = OutReg.hold r s.free := rfl
@[simp] theorem State.raise_nets (s : State) (r : Report) : (s.raise r).nets = s.nets := rfl
@[simp] theorem State.raise_edges (s : State) (r : Report) : (s.raise r).edges = s.edges := rfl
@[simp] theorem State.raise_consumed (s : State) (r : Report) : (s.raise r).consumed = s.consumed := rfl
@[simp] theorem State.raise_emitted (s : State) (r : Report) : (s.raise r).emitted = s.emitted ++ [r] := rfl
@[simp] theorem State.raise_received (s : State) (r : Report) : (s.raise r).received = s.received := rfl
@[simp] theorem State.raise_free (s : State) (r : Report) : (s.raise r).free = s.free + 1 := rfl

/-! `State.handTo` -/

@[simp] theorem State.handTo_phase (s : State) (r : Report) : (s.handTo r).phase = s.phase := rfl
@[simp] theorem State.handTo_cnt (s : State) (r : Report) : (s.handTo r).cnt = s.cnt := rfl
@[simp] theorem State.handTo_sop0 (s : State) (r : Report) : (s.handTo r).sop0 = s.sop0 := rfl
@[simp] theorem State.handTo_buf (s : State) (r : Report) : (s.handTo r).buf = s.buf := rfl
@[simp] theorem State.handTo_out (s : State) (r : Report) : (s.handTo r).out = OutReg.unspecified s.free := rfl
@[simp] theorem State.handTo_nets (s : State) (r : Report) : (s.handTo r).nets = s.nets := rfl
@[simp] theorem State.handTo_edges (s : State) (r : Report) : (s.handTo r).edges = s.edges := rfl
@[simp] theorem State.handTo_consumed (s : State) (r : Report) : (s.handTo r).consumed = s.consumed := rfl
@[simp] theorem State.handTo_emitted (s : State) (r : Report) : (s.handTo r).emitted = s.emitted := rfl
@[simp] theorem State.handTo_received (s : State) (r : Report) : (s.handTo r).received = s.received ++ [r] := rfl
@[simp] theorem State.handTo_free (s : State) (r : Report) : (s.handTo r).free = s.free + 1 := rfl

/-! `State.record` -/

@[simp] theorem State.record_phase (s : State) (e : Event) : (s.record e).phase = s.phase := rfl
@[simp] theorem State.record_cnt (s : State) (e : Event) : (s.record e).cnt = s.cnt := rfl
@[simp] theorem State.record_sop0 (s : State) (e : Event) : (s.record e).sop0 = s.sop0 := rfl
@[simp] theorem State.record_buf (s : State) (e : Event) : (s.record e).buf = s.buf := rfl
@[simp] theorem State.record_out (s : State) (e : Event) : (s.record e).out = s.out := rfl
@[simp] theorem State.record_nets (s : State) (e : Event) : (s.record e).nets = s.nets := rfl
@[simp] theorem State.record_edges (s : State) (e : Event) : (s.record e).edges = s.edges := rfl
@[simp] theorem State.record_consumed (s : State) (e : Event) : (s.record e).consumed = s.consumed ++ [e] := rfl
@[simp] theorem State.record_emitted (s : State) (e : Event) : (s.record e).emitted = s.emitted := rfl
@[simp] theorem State.record_received (s : State) (e : Event) : (s.record e).received = s.received := rfl
@[simp] theorem State.record_free (s : State) (e : Event) : (s.record e).free = s.free := rfl

/-! `State.writeBuf` -/

@[simp] theorem State.writeBuf_phase (s : State) (i : Fin 22) (b : Byte) : (s.writeBuf i b).phase = s.phase := rfl
@[simp] theorem State.writeBuf_cnt (s : State) (i : Fin 22) (b : Byte) : (s.writeBuf i b).cnt = s.cnt := rfl
@[simp] theorem State.writeBuf_sop0 (s : State) (i : Fin 22) (b : Byte) : (s.writeBuf i b).sop0 = s.sop0 := rfl
@[simp] theorem State.writeBuf_buf (s : State) (i : Fin 22) (b : Byte) : (s.writeBuf i b).buf = s.buf.set i.val b := rfl
@[simp] theorem State.writeBuf_out (s : State) (i : Fin 22) (b : Byte) : (s.writeBuf i b).out = s.out := rfl
@[simp] theorem State.writeBuf_nets (s : State) (i : Fin 22) (b : Byte) : (s.writeBuf i b).nets = s.nets := rfl
@[simp] theorem State.writeBuf_edges (s : State) (i : Fin 22) (b : Byte) : (s.writeBuf i b).edges = s.edges := rfl
@[simp] theorem State.writeBuf_consumed (s : State) (i : Fin 22) (b : Byte) : (s.writeBuf i b).consumed = s.consumed := rfl
@[simp] theorem State.writeBuf_emitted (s : State) (i : Fin 22) (b : Byte) : (s.writeBuf i b).emitted = s.emitted := rfl
@[simp] theorem State.writeBuf_received (s : State) (i : Fin 22) (b : Byte) : (s.writeBuf i b).received = s.received := rfl
@[simp] theorem State.writeBuf_free (s : State) (i : Fin 22) (b : Byte) : (s.writeBuf i b).free = s.free := rfl

/-! `State.driveChk` -/

@[simp] theorem State.driveChk_phase (s : State) : (s.driveChk).phase = s.phase := rfl
@[simp] theorem State.driveChk_cnt (s : State) : (s.driveChk).cnt = s.cnt := rfl
@[simp] theorem State.driveChk_sop0 (s : State) : (s.driveChk).sop0 = s.sop0 := rfl
@[simp] theorem State.driveChk_buf (s : State) : (s.driveChk).buf = s.buf := rfl
@[simp] theorem State.driveChk_out (s : State) : (s.driveChk).out = s.out := rfl
@[simp] theorem State.driveChk_nets (s : State) : (s.driveChk).nets = { s.nets with chkOk := chkOk s.buf } := rfl
@[simp] theorem State.driveChk_edges (s : State) : (s.driveChk).edges = s.edges := rfl
@[simp] theorem State.driveChk_consumed (s : State) : (s.driveChk).consumed = s.consumed := rfl
@[simp] theorem State.driveChk_emitted (s : State) : (s.driveChk).emitted = s.emitted := rfl
@[simp] theorem State.driveChk_received (s : State) : (s.driveChk).received = s.received := rfl
@[simp] theorem State.driveChk_free (s : State) : (s.driveChk).free = s.free := rfl

/-! `State.driveQuat` -/

@[simp] theorem State.driveQuat_phase (s : State) : (s.driveQuat).phase = s.phase := rfl
@[simp] theorem State.driveQuat_cnt (s : State) : (s.driveQuat).cnt = s.cnt := rfl
@[simp] theorem State.driveQuat_sop0 (s : State) : (s.driveQuat).sop0 = s.sop0 := rfl
@[simp] theorem State.driveQuat_buf (s : State) : (s.driveQuat).buf = s.buf := rfl
@[simp] theorem State.driveQuat_out (s : State) : (s.driveQuat).out = s.out := rfl
@[simp] theorem State.driveQuat_nets (s : State) : (s.driveQuat).nets = { s.nets with quat := quatOf s.buf } := rfl
@[simp] theorem State.driveQuat_edges (s : State) : (s.driveQuat).edges = s.edges := rfl
@[simp] theorem State.driveQuat_consumed (s : State) : (s.driveQuat).consumed = s.consumed := rfl
@[simp] theorem State.driveQuat_emitted (s : State) : (s.driveQuat).emitted = s.emitted := rfl
@[simp] theorem State.driveQuat_received (s : State) : (s.driveQuat).received = s.received := rfl
@[simp] theorem State.driveQuat_free (s : State) : (s.driveQuat).free = s.free := rfl

/-! `State.driveGyro` -/

@[simp] theorem State.driveGyro_phase (s : State) : (s.driveGyro).phase = s.phase := rfl
@[simp] theorem State.driveGyro_cnt (s : State) : (s.driveGyro).cnt = s.cnt := rfl
@[simp] theorem State.driveGyro_sop0 (s : State) : (s.driveGyro).sop0 = s.sop0 := rfl
@[simp] theorem State.driveGyro_buf (s : State) : (s.driveGyro).buf = s.buf := rfl
@[simp] theorem State.driveGyro_out (s : State) : (s.driveGyro).out = s.out := rfl
@[simp] theorem State.driveGyro_nets (s : State) : (s.driveGyro).nets = { s.nets with gyro := gyroOf s.buf } := rfl
@[simp] theorem State.driveGyro_edges (s : State) : (s.driveGyro).edges = s.edges := rfl
@[simp] theorem State.driveGyro_consumed (s : State) : (s.driveGyro).consumed = s.consumed := rfl
@[simp] theorem State.driveGyro_emitted (s : State) : (s.driveGyro).emitted = s.emitted := rfl
@[simp] theorem State.driveGyro_received (s : State) : (s.driveGyro).received = s.received := rfl
@[simp] theorem State.driveGyro_free (s : State) : (s.driveGyro).free = s.free := rfl

/-! `State.driveAccel` -/

@[simp] theorem State.driveAccel_phase (s : State) : (s.driveAccel).phase = s.phase := rfl
@[simp] theorem State.driveAccel_cnt (s : State) : (s.driveAccel).cnt = s.cnt := rfl
@[simp] theorem State.driveAccel_sop0 (s : State) : (s.driveAccel).sop0 = s.sop0 := rfl
@[simp] theorem State.driveAccel_buf (s : State) : (s.driveAccel).buf = s.buf := rfl
@[simp] theorem State.driveAccel_out (s : State) : (s.driveAccel).out = s.out := rfl
@[simp] theorem State.driveAccel_nets (s : State) : (s.driveAccel).nets = { s.nets with accel := accelOf s.buf } := rfl
@[simp] theorem State.driveAccel_edges (s : State) : (s.driveAccel).edges = s.edges := rfl
@[simp] theorem State.driveAccel_consumed (s : State) : (s.driveAccel).consumed = s.consumed := rfl
@[simp] theorem State.driveAccel_emitted (s : State) : (s.driveAccel).emitted = s.emitted := rfl
@[simp] theorem State.driveAccel_received (s : State) : (s.driveAccel).received = s.received := rfl
@[simp] theorem State.driveAccel_free (s : State) : (s.driveAccel).free = s.free := rfl

/-! `State.driveNorm` -/

@[simp] theorem State.driveNorm_phase (s : State) (v : Half) : (s.driveNorm v).phase = s.phase := rfl
@[simp] theorem State.driveNorm_cnt (s : State) (v : Half) : (s.driveNorm v).cnt = s.cnt := rfl
@[simp] theorem State.driveNorm_sop0 (s : State) (v : Half) : (s.driveNorm v).sop0 = s.sop0 := rfl
@[simp] theorem State.driveNorm_buf (s : State) (v : Half) : (s.driveNorm v).buf = s.buf := rfl
@[simp] theorem State.driveNorm_out (s : State) (v : Half) : (s.driveNorm v).out = s.out := rfl
@[simp] theorem State.driveNorm_nets (s : State) (v : Half) : (s.driveNorm v).nets = { s.nets with norm := normBits v } := rfl
@[simp] theorem State.driveNorm_edges (s : State) (v : Half) : (s.driveNorm v).edges = s.edges := rfl
@[simp] theorem State.driveNorm_consumed (s : State) (v : Half) : (s.driveNorm v).consumed = s.consumed := rfl
@[simp] theorem State.driveNorm_emitted (s : State) (v : Half) : (s.driveNorm v).emitted = s.emitted := rfl
@[simp] theorem State.driveNorm_received (s : State) (v : Half) : (s.driveNorm v).received = s.received := rfl
@[simp] theorem State.driveNorm_free (s : State) (v : Half) : (s.driveNorm v).free = s.free := rfl

/-! `State.idleNets` -/

@[simp] theorem State.idleNets_phase (s : State) : (s.idleNets).phase = s.phase := rfl
@[simp] theorem State.idleNets_cnt (s : State) : (s.idleNets).cnt = s.cnt := rfl
@[simp] theorem State.idleNets_sop0 (s : State) : (s.idleNets).sop0 = s.sop0 := rfl
@[simp] theorem State.idleNets_buf (s : State) : (s.idleNets).buf = s.buf := rfl
@[simp] theorem State.idleNets_out (s : State) : (s.idleNets).out = s.out := rfl
@[simp] theorem State.idleNets_nets (s : State) : (s.idleNets).nets = Nets.idle := rfl
@[simp] theorem State.idleNets_edges (s : State) : (s.idleNets).edges = s.edges := rfl
@[simp] theorem State.idleNets_consumed (s : State) : (s.idleNets).consumed = s.consumed := rfl
@[simp] theorem State.idleNets_emitted (s : State) : (s.idleNets).emitted = s.emitted := rfl
@[simp] theorem State.idleNets_received (s : State) : (s.idleNets).received = s.received := rfl
@[simp] theorem State.idleNets_free (s : State) : (s.idleNets).free = s.free := rfl

/-! `State.restart` -/

@[simp] theorem State.restart_phase (s : State) : (s.restart).phase = .probe := rfl
@[simp] theorem State.restart_cnt (s : State) : (s.restart).cnt = 0 := rfl
@[simp] theorem State.restart_sop0 (s : State) : (s.restart).sop0 = Config.freeSop0 s.free := rfl
@[simp] theorem State.restart_buf (s : State) : (s.restart).buf = Config.freeBuf s.free := rfl
@[simp] theorem State.restart_out (s : State) : (s.restart).out = OutReg.unspecified s.free := rfl
@[simp] theorem State.restart_nets (s : State) : (s.restart).nets = s.nets := rfl
@[simp] theorem State.restart_edges (s : State) : (s.restart).edges = s.edges := rfl
@[simp] theorem State.restart_consumed (s : State) : (s.restart).consumed = s.consumed := rfl
@[simp] theorem State.restart_emitted (s : State) : (s.restart).emitted = s.emitted := rfl
@[simp] theorem State.restart_received (s : State) : (s.restart).received = s.received := rfl
@[simp] theorem State.restart_free (s : State) : (s.restart).free = s.free + 1 := rfl

end Sys2Proof.Machine
end

