-- ==== Sys2Proof/Laws/Ops.lean ====
section
/-! SUPPORT. What each shared operation can do, said once. -/

namespace Sys2Proof.Machine

/-- Reading the buffer after a write. -/
theorem State.readBuf_writeBuf (s : State) (i j : Fin 22) (b : Byte) :
    (s.writeBuf i b).readBuf j = if j = i then b else s.readBuf j := by
  simp only [State.readBuf, State.writeBuf_buf, Vector.getElem_set, Fin.ext_iff, eq_comm]

/-- The ten words carry the record. -/
@[simp] theorem Sample.ofWords_words (w : Sample) : Sample.ofWords w.words = w := rfl

@[simp] theorem readOfBit_bit (ph : ReadPhase) : readOfBit (bitOfRead ph) = ph := by cases ph <;> rfl

@[simp] theorem OutReg.hold_valid (r : Report) (n : Nat) : (OutReg.hold r n).valid = true := rfl

@[simp] theorem OutReg.hold_status (r : Report) (n : Nat) : (OutReg.hold r n).status = r.status := rfl

@[simp] theorem OutReg.hold_phase (r : Report) (n : Nat) : (OutReg.hold r n).phase = r.phaseBit := rfl

@[simp] theorem OutReg.hold_count (r : Report) (n : Nat) : (OutReg.hold r n).count = r.count := rfl

@[simp] theorem OutReg.unspecified_valid (n : Nat) : (OutReg.unspecified n).valid = false := rfl

@[simp] theorem Report.nextPhase_noSop : Report.noSop.nextPhase = .probe := rfl

@[simp] theorem Report.nextPhase_sample (w : Sample) : (Report.sample w).nextPhase = .probe := rfl

@[simp] theorem Report.nextPhase_shortRead (ph : ReadPhase) (k : Cnt) : (Report.shortRead ph k).nextPhase = .probe := rfl

@[simp] theorem Report.nextPhase_checksumMismatch : Report.checksumMismatch.nextPhase = .probe := rfl

@[simp] theorem Report.nextPhase_transportFailure (ph : ReadPhase) (k : Cnt) :
    (Report.transportFailure ph k).nextPhase = .failed := rfl

/-- The nets of the three decoders show `DECODE(buf)`. -/
theorem State.drive_sample (s : State) :
    s.driveQuat.driveGyro.driveAccel.nets.sample = decodeFrame s.buf := rfl

/-- Everything `completeFrame` does. -/
theorem State.completeFrame_eq (s : State) :
    s.completeFrame =
      if chkOk s.buf then (s.emit (.sample (decodeFrame s.buf))).idleNets
      else (s.raise .checksumMismatch).idleNets := by
  have hs : s.driveChk.driveQuat.driveGyro.driveAccel.nets.sample = decodeFrame s.buf := rfl
  unfold State.completeFrame
  simp only [hs, State.driveChk_nets]
  split
  · simp only [State.emit, State.idleNets, State.driveAccel, State.driveGyro, State.driveQuat, State.driveChk]
  · simp only [State.raise, State.emit, State.idleNets, State.driveChk]

/-- A hand-over that goes on hands over the outcome read from the register. -/
theorem State.handOver_next {s t : State} (h : s.handOver = .next t) :
    ∃ r, s.out.report? = some r ∧ t = s.handTo r := by
  unfold State.handOver at h
  split at h
  · next r hr => exact ⟨r, hr, by simpa using h.symm⟩
  · cases h

/-- A hand-over stops only on a reserved status. -/
theorem State.handOver_of_report {s : State} {r : Report} (h : s.out.report? = some r) :
    s.handOver = .next (s.handTo r) := by
  simp [State.handOver, h]

end Sys2Proof.Machine
end

