-- ==== Sys2Proof/Laws/Step.lean ====
section
/-! SUPPORT. What a step can do, said once: the inversion lemmas of the event step, of the edge and of a run. -/

namespace Sys2Proof.Machine

/-- Performing an operation goes on exactly when its meaning does, with the event taken unless it is held. -/
theorem perform_next {i : Instr} {e : Event} {s t : State} (h : perform i e s = .next t) :
    ∃ u, exec i s = .next u ∧ t = if holdsEvent i then u else u.record e := by
  unfold perform at h
  split at h
  · next u hu => exact ⟨u, hu, by simpa using h.symm⟩
  · cases h
  · cases h

/-- The event step goes on exactly through the operation its selector decodes to. -/
theorem takeEvent_next {e : Event} {s t : State} (h : takeEvent e s = .next t) :
    ∃ i, decodeSel (s.selector e) = .ok i ∧ perform i e s = .next t := by
  unfold takeEvent at h
  rw [decode_sel_word] at h
  split at h
  · next i hi => exact ⟨i, hi, h⟩
  · cases h

/-- The event step of a selector that decodes. -/
theorem takeEvent_of_decode {e : Event} {s : State} {i : Instr} (h : decodeSel (s.selector e) = .ok i) :
    takeEvent e s = perform i e s := by
  simp [takeEvent, h]

/-- The five things an edge can do. -/
theorem edgeStep_cases (g : EdgeIn) (s : State) :
    (g.rst = true ∧ edgeStep g s = takeEvent .reset s) ∨
    (g.rst = false ∧ s.out.valid = true ∧ g.outReady = true ∧ edgeStep g s = s.handOver) ∨
    (g.rst = false ∧ s.out.valid = true ∧ g.outReady = false ∧ edgeStep g s = .next s) ∨
    (g.rst = false ∧ s.out.valid = false ∧ g.rxValid = true ∧ edgeStep g s = takeEvent g.event s) ∨
    (g.rst = false ∧ s.out.valid = false ∧ g.rxValid = false ∧ edgeStep g s = .next s) := by
  unfold edgeStep
  cases g.rst <;> cases s.out.valid <;> cases g.outReady <;> cases g.rxValid <;> simp

/-- The step takes the first edge, or holds when none is left. -/
theorem step_cons {s : State} {g : EdgeIn} {rest : List EdgeIn} (h : s.edges = g :: rest) :
    step s = edgeStep g { s with edges := rest } := by
  simp [step, h]

theorem step_nil {s : State} (h : s.edges = []) : step s = .next s := by
  simp [step, h]

/-- A run starts with a step that goes on. -/
theorem run_succ_next {n : Nat} {s u : State} (h : step s = .next u) :
    Host.Core.run Sys2Proof.core (n + 1) s = Host.Core.run Sys2Proof.core n u := by
  have h' : Sys2Proof.core.step s = .next u := h
  refine (Host.Core.run.eq_2 Sys2Proof.core s n).trans ?_
  rw [h']

/-- A run that goes on took a step that went on. -/
theorem run_succ {n : Nat} {s t : State} (h : Host.Core.run Sys2Proof.core (n + 1) s = .next t) :
    ∃ u, step s = .next u ∧ Host.Core.run Sys2Proof.core n u = .next t := by
  cases hs : step s with
  | next u => exact ⟨u, rfl, (run_succ_next hs).symm.trans h⟩
  | fault r =>
    have h' : Sys2Proof.core.step s = .fault r := hs
    have := (Host.Core.run.eq_2 Sys2Proof.core s n).symm.trans h
    rw [h'] at this; cases this
  | refused r =>
    have h' : Sys2Proof.core.step s = .refused r := hs
    have := (Host.Core.run.eq_2 Sys2Proof.core s n).symm.trans h
    rw [h'] at this; cases this

/-- A run of an event program goes on past an event that is taken. -/
theorem runEvents_cons {s t : State} {e : Event} {es : List Event} (h : s.phase ≠ .failed ∨ e = .reset)
    (ht : takeEvent e s = .next t) : runEvents s (e :: es) = runEvents t es := by
  rw [runEvents, if_neg fun hf => h.elim (· hf.1) (hf.2 ·), ht]

/-- A run of an event program is stuck at an event other than `Reset` in `FAILED`. -/
theorem runEvents_stuck {s : State} {e : Event} {es : List Event} (hp : s.phase = .failed) (he : e ≠ .reset) :
    runEvents s (e :: es) = .stuck s (e :: es) := by
  rw [runEvents, if_pos ⟨hp, he⟩]

/-- A run that finishes goes on with the events that follow. -/
theorem runEvents_append {s t : State} {es fs : List Event} (h : runEvents s es = .finished t) :
    runEvents s (es ++ fs) = runEvents t fs := by
  induction es generalizing s with
  | nil => cases h; rfl
  | cons e es ih =>
    rw [runEvents] at h
    rw [List.cons_append, runEvents]
    split at h
    · cases h
    · next hn =>
      rw [if_neg hn]
      split at h
      · exact ih h
      · cases h
      · cases h

end Sys2Proof.Machine
end

