-- ==== Sys2Proof/Laws/Selection.lean ====
section
/-! SUPPORT. The selection read as the table of spec 40_framer.md R91: in a state within the ranges of R27 the selector of an event
decodes to one operation, given here by cases on the event and the phase. -/

namespace Sys2Proof.Machine

/-- The operation of R91 for a state and an event. -/
def tableOp (s : State) : Event → Instr
  | .reset => .reset
  | .fail =>
    match s.phase with
    | .probe => .xportFail .probe s.cnt
    | .payload => .xportFail .payload s.cnt
    | .failed => .failedHold .fail
  | .endRead =>
    match s.phase with
    | .probe => .probeEnd s.cnt
    | .payload => .payloadEnd s.cnt
    | .failed => .failedHold .endRead
  | .byte b =>
    match s.phase with
    | .probe =>
      if s.cnt = 0 then .probeFirst b
      else if s.sop0 = 0x55 ∧ b = 0x55 then .probeMatch
      else .probeMiss s.sop0 b
    | .payload => if s.cnt = 21 then .payloadLast b else .payloadByte s.cnt b
    | .failed => .failedHold (.byte b)

/-- What `posOk` says of each phase. -/
theorem State.posOk_probe {s : State} (h : s.posOk = true) (hp : s.phase = .probe) : s.cnt = 0 ∨ s.cnt = 1 := by
  simp only [State.posOk, hp, decide_eq_true_eq] at h
  simp only [← BitVec.toNat_inj]
  change s.cnt.toNat = 0 ∨ s.cnt.toNat = 1
  omega

theorem State.posOk_payload {s : State} (h : s.posOk = true) (hp : s.phase = .payload) : s.cnt.toNat < 22 := by
  simpa only [State.posOk, hp, decide_eq_true_eq] using h

theorem State.posOk_failed {s : State} (h : s.posOk = true) (hp : s.phase = .failed) : s.cnt = 0 := by
  simpa only [State.posOk, hp, decide_eq_true_eq] using h

/-- `Reset` selects `RESET` in every state. -/
theorem decodeSel_reset (s : State) : decodeSel (s.selector .reset) = .ok .reset := by
  cases h : s.phase <;> simp [decodeSel, selectOp, State.selector, Phase.code, Event.kind, h]

/-- In `FAILED` every other event selects `FAILED_HOLD`. -/
theorem decodeSel_failed {s : State} {e : Event} (hp : s.phase = .failed) (he : e ≠ .reset) :
    decodeSel (s.selector e) = .ok (.failedHold e) := by
  cases e <;> simp_all [decodeSel, selectOp, State.selector, Phase.code, Event.kind, Event.data, Event.ofFields]

/-- A probe byte at a count of 0 or 1. -/
theorem decodeSel_probe_byte {s : State} (b : Byte) (hp : s.phase = .probe) (hc : s.cnt = 0 ∨ s.cnt = 1) :
    decodeSel (s.selector (.byte b)) = .ok (tableOp s (.byte b)) := by
  rcases hc with hc | hc
  · simp [decodeSel, selectOp, State.selector, Phase.code, Event.kind, Event.data, tableOp, hp, hc]
  · by_cases h : s.sop0 = 0x55#8 ∧ b = 0x55#8
    · simp [decodeSel, selectOp, State.selector, Phase.code, Event.kind, Event.data, tableOp, hp, hc, h, Config.sop0,
        Config.sop1]
    · have hw : ((Instr.probeMiss s.sop0 b).wellFormed) = true := by
        rw [wellFormed_probeMiss, Bool.not_eq_true', Bool.and_eq_false_iff]
        simp only [beq_eq_false_iff_ne, Config.sop0, Config.sop1]
        exact not_and_or.mp h
      simp [decodeSel, selectOp, State.selector, Phase.code, Event.kind, Event.data, tableOp, hp, hc, Config.sop0,
        Config.sop1, h, hw]

/-- A payload byte at a count below 22. -/
theorem decodeSel_payload_byte {s : State} (b : Byte) (hp : s.phase = .payload) (hc : s.cnt.toNat < 22) :
    decodeSel (s.selector (.byte b)) = .ok (tableOp s (.byte b)) := by
  by_cases h : s.cnt = 21#5
  · simp [decodeSel, selectOp, State.selector, Phase.code, Event.kind, Event.data, tableOp, hp, h]
  · have hlt : s.cnt.toNat + 1 < 22 := by
      have : s.cnt.toNat ≠ 21 := fun h' => h (BitVec.eq_of_toNat_eq h')
      omega
    simp [decodeSel, selectOp, State.selector, Phase.code, Event.kind, Event.data, tableOp, hp, h, hlt]

/-- The whole of R91: within the ranges of R27 the selection is `tableOp`. -/
theorem decodeSel_selector {s : State} (h : s.posOk = true) (e : Event) :
    decodeSel (s.selector e) = .ok (tableOp s e) := by
  cases e with
  | reset => exact decodeSel_reset s
  | byte b =>
    cases hp : s.phase with
    | probe => exact decodeSel_probe_byte b hp (s.posOk_probe h hp)
    | payload => exact decodeSel_payload_byte b hp (s.posOk_payload h hp)
    | failed => rw [decodeSel_failed hp (by simp)]; simp [tableOp, hp]
  | endRead =>
    cases hp : s.phase with
    | probe =>
      simp only [State.posOk, hp, decide_eq_true_eq] at h
      simp [decodeSel, selectOp, State.selector, Phase.code, Event.kind, tableOp, hp, h]
    | payload =>
      simp only [State.posOk, hp, decide_eq_true_eq] at h
      simp [decodeSel, selectOp, State.selector, Phase.code, Event.kind, tableOp, hp, h]
    | failed => rw [decodeSel_failed hp (by simp)]; simp [tableOp, hp]
  | fail =>
    cases hp : s.phase with
    | probe =>
      simp only [State.posOk, hp, decide_eq_true_eq] at h
      simp [decodeSel, selectOp, State.selector, Phase.code, Event.kind, tableOp, hp, h, ReadPhase.ofCode]
    | payload =>
      simp only [State.posOk, hp, decide_eq_true_eq] at h
      simp [decodeSel, selectOp, State.selector, Phase.code, Event.kind, tableOp, hp, h, ReadPhase.ofCode]
    | failed => rw [decodeSel_failed hp (by simp)]; simp [tableOp, hp]

/-- Within the ranges of R27 the event step performs `tableOp`. -/
theorem takeEvent_eq {s : State} (h : s.posOk = true) (e : Event) : takeEvent e s = perform (tableOp s e) e s :=
  takeEvent_of_decode (decodeSel_selector h e)

/-- `Reset` is taken in every state. -/
theorem takeEvent_reset (s : State) : takeEvent .reset s = .next (s.restart.record .reset) :=
  takeEvent_of_decode (decodeSel_reset s)

/-- In `FAILED` no other event is. -/
theorem takeEvent_failed {s : State} {e : Event} (hp : s.phase = .failed) (he : e ≠ .reset) : takeEvent e s = .next s :=
  takeEvent_of_decode (decodeSel_failed hp he)

end Sys2Proof.Machine
end

