-- ==== Sys2Proof/Laws/Cases.lean ====
section
/-! SUPPORT. What an event step can do, said once: from a state within the ranges of spec 10_state.md R27, one of ten cases, each with
its next state. -/

namespace Sys2Proof.Machine

/-- The ten cases of an event step, by operation. -/
inductive EventStep (s : State) : Event → State → Prop where
  | reset : EventStep s .reset (s.restart.record .reset)
  | failedHold (e : Event) (hp : s.phase = .failed) (he : e ≠ .reset) : EventStep s e s
  | xportFail (ph : ReadPhase) (hp : s.phase = match ph with | .probe => .probe | .payload => .payload) :
      EventStep s .fail ((s.raise (.transportFailure ph s.cnt)).record .fail)
  | probeFirst (b : Byte) (hp : s.phase = .probe) (hc : s.cnt = 0) :
      EventStep s (.byte b) (State.record { s with sop0 := b, cnt := 1 } (.byte b))
  | probeMatch (b : Byte) (hp : s.phase = .probe) (hc : s.cnt = 1) (h : s.sop0 = 0x55 ∧ b = 0x55) :
      EventStep s (.byte b) (State.record { s with phase := .payload, cnt := 0 } (.byte b))
  | probeMiss (b : Byte) (hp : s.phase = .probe) (hc : s.cnt = 1) (h : ¬ (s.sop0 = 0x55 ∧ b = 0x55)) :
      EventStep s (.byte b) (State.record { s.emit .noSop with cnt := 0 } (.byte b))
  | probeEnd (hp : s.phase = .probe) : EventStep s .endRead ((s.raise (.shortRead .probe s.cnt)).record .endRead)
  | payloadByte (b : Byte) (hp : s.phase = .payload) (hc : s.cnt.toNat < 21) :
      EventStep s (.byte b) (State.record { s.writeBuf ⟨s.cnt.toNat, by omega⟩ b with cnt := s.cnt + 1 } (.byte b))
  | payloadLast (b : Byte) (hp : s.phase = .payload) (hc : s.cnt = 21) :
      EventStep s (.byte b) (State.record { (s.writeBuf 21 b).completeFrame with phase := .probe, cnt := 0 } (.byte b))
  | payloadEnd (hp : s.phase = .payload) : EventStep s .endRead ((s.raise (.shortRead .payload s.cnt)).record .endRead)

/-- The event step performs the operation that the table gives. -/
theorem takeEvent_as {s : State} {e : Event} {i : Instr} (h : s.posOk = true) (ht : tableOp s e = i) :
    takeEvent e s = perform i e s := by
  rw [takeEvent_eq h, ht]

/-- Within the ranges of R27 every event has one of the ten steps. -/
theorem takeEvent_cases {s : State} (h : s.posOk = true) (e : Event) : ∃ t, takeEvent e s = .next t ∧ EventStep s e t := by
  cases hp : s.phase with
  | failed =>
    by_cases he : e = .reset
    · subst he; exact ⟨_, takeEvent_reset s, .reset⟩
    · exact ⟨s, takeEvent_failed hp he, .failedHold e hp he⟩
  | probe =>
    have hc := s.posOk_probe h hp
    cases e with
    | reset => exact ⟨_, takeEvent_reset s, .reset⟩
    | fail => exact ⟨_, takeEvent_as (e := .fail) (i := .xportFail .probe s.cnt) h
            (by simp only [tableOp, hp]), .xportFail .probe hp⟩
    | endRead => exact ⟨_, takeEvent_as (e := .endRead) (i := .probeEnd s.cnt) h (by simp only [tableOp, hp]), .probeEnd hp⟩
    | byte b =>
      rcases hc with hc | hc
      · exact ⟨_, takeEvent_as (e := .byte b) (i := .probeFirst b) h
            (by simp only [tableOp, hp, if_pos hc]), .probeFirst b hp hc⟩
      · have hne : ¬ s.cnt = 0 := by rw [hc]; decide
        by_cases hm : s.sop0 = 0x55 ∧ b = 0x55
        · exact ⟨_, takeEvent_as (e := .byte b) (i := .probeMatch) h
            (by simp only [tableOp, hp, if_neg hne, if_pos hm]), .probeMatch b hp hc hm⟩
        · exact ⟨_, takeEvent_as (e := .byte b) (i := .probeMiss s.sop0 b) h
            (by simp only [tableOp, hp, if_neg hne, if_neg hm]), .probeMiss b hp hc hm⟩
  | payload =>
    have hc := s.posOk_payload h hp
    cases e with
    | reset => exact ⟨_, takeEvent_reset s, .reset⟩
    | fail => exact ⟨_, takeEvent_as (e := .fail) (i := .xportFail .payload s.cnt) h
            (by simp only [tableOp, hp]), .xportFail .payload hp⟩
    | endRead => exact ⟨_, takeEvent_as (e := .endRead) (i := .payloadEnd s.cnt) h
            (by simp only [tableOp, hp]), .payloadEnd hp⟩
    | byte b =>
      by_cases hl : s.cnt = 21
      · exact ⟨_, takeEvent_as (e := .byte b) (i := .payloadLast b) h
            (by simp only [tableOp, hp, if_pos hl]), .payloadLast b hp hl⟩
      · have hlt : s.cnt.toNat < 21 := by
          have : s.cnt.toNat ≠ 21 := fun h' => hl (BitVec.eq_of_toNat_eq h')
          omega
        refine ⟨_, ?_, .payloadByte b hp hlt⟩
        rw [takeEvent_as h (show tableOp s (.byte b) = .payloadByte s.cnt b by simp only [tableOp, hp, if_neg hl])]
        have hx : exec (.payloadByte s.cnt b) s = .next { s.writeBuf ⟨s.cnt.toNat, hc⟩ b with cnt := s.cnt + 1 } := by
          simp only [exec, execPayloadByte, hc, dif_pos]
        simp only [perform, hx, holdsEvent, Bool.false_eq_true, if_false]

/-- An event step from a state within the ranges of R27 is one of the ten. -/
theorem eventStep_of_takeEvent {s t : State} {e : Event} (h : s.posOk = true) (ht : takeEvent e s = .next t) :
    EventStep s e t := by
  obtain ⟨u, hu, hc⟩ := takeEvent_cases h e
  rw [ht] at hu
  cases hu
  exact hc

end Sys2Proof.Machine
end

