-- ==== Sys2Proof/Laws/Frame.lean ====
section
/-! SUPPORT. The fields of a frame written and read back (spec 30_encoding.md R63, R79). -/

namespace Sys2Proof.Machine

/-- The two bytes of a 16-bit value, the high one first, are the value. -/
@[simp] theorem high_append_low (v : Half) : v.extractLsb' 8 8 ++ v.extractLsb' 0 8 = v := by
  apply BitVec.eq_of_getLsbD_eq
  intro j hj
  simp only [BitVec.getLsbD_append, BitVec.getLsbD_extractLsb']
  by_cases h : j < 8
  · simp [h]
  · simp [h, show j - 8 < 8 by omega, show 8 + (j - 8) = j by omega]

/-- The frame of eleven fields has those fields. -/
@[simp] theorem fieldsOf_frameOf (x : Fields) : fieldsOf (frameOf x) = x := by
  obtain ⟨a, b, c, d, gx, gy, gz, ax, ay, az, chk⟩ := x
  simp only [fieldsOf, Fields.mk.injEq]
  exact ⟨high_append_low a, high_append_low b, high_append_low c, high_append_low d, high_append_low gx, high_append_low gy,
    high_append_low gz, high_append_low ax, high_append_low ay, high_append_low az, high_append_low chk⟩

/-- The checksum field has no part in the sum. -/
theorem rawSum_frameOf_chk (x : Fields) (c : Half) : rawSum (frameOf { x with chk := c }) = rawSum (frameOf x) := by
  simp only [rawSum, frameOf, Config.dataLen, Vector.toList_mk, List.take_succ_cons, List.take_zero]

end Sys2Proof.Machine
end

