-- ==== Sys2Proof/Laws/PerInstr.lean ====
section
/-! SUPPORT. One family over the operations: the words the encoder writes match the operation's own row of the opcode
table (spec 30_encoding.md R72, R73). -/

namespace Sys2Proof.Laws.RowMatch

/-- The row of an operation accepts every word the encoder writes for it, and a row of format `F` accepts every frame. -/
def Statement (i : Instr) : Prop :=
  ∃ r ∈ opcodeRows, r.op = i.op ∧
    match i.sel? with
    | some x => r.accepts (.sel x.word) = true
    | none => ∀ f, r.accepts (.frame f) = true

/-- A row whose mask leaves the low 16 bits open accepts a selector by its upper nine bits. -/
theorem accepts_of_upper {x : Sel} {o : Op} {p m : Nat}
    (h : (x.phase ++ x.cnt ++ x.kind).toNat &&& m = p) :
    (Row.mk o true (p <<< 16) (m <<< 16)).accepts (.sel x.word) = true := by
  simp only [Row.accepts, Sel.word_and, h, Bool.true_and, beq_self_eq_true]

theorem reset : Statement .reset := by
  refine ⟨_, .head _, rfl, ?_⟩
  exact accepts_of_upper (p := 3) (m := 3) (by decide)

theorem failedHold (e : Event) : Statement (.failedHold e) := by
  refine ⟨_, .tail _ (.head _), rfl, ?_⟩
  exact accepts_of_upper (p := 0x100) (m := 0x180)
    (by show ((2#2 ++ 0#5 ++ e.kind).toNat &&& 0x180) = 0x100; generalize e.kind = k; revert k; decide)

theorem xportFail (ph : ReadPhase) (k : Cnt) : Statement (.xportFail ph k) := by
  refine ⟨_, .tail _ (.tail _ (.head _)), rfl, ?_⟩
  exact accepts_of_upper (p := 2) (m := 0x103) (by cases ph <;> revert k <;> decide)

theorem probeMatch : Statement .probeMatch :=
  ⟨_, .tail _ (.tail _ (.tail _ (.head _))), rfl, rfl⟩

theorem probeMiss (b0 b1 : Byte) : Statement (.probeMiss b0 b1) := by
  refine ⟨_, .tail _ (.tail _ (.tail _ (.tail _ (.head _)))), rfl, ?_⟩
  exact accepts_of_upper (p := 4) (m := 0x1FF) (show ((0#2 ++ 1#5 ++ 0#2).toNat &&& 0x1FF) = 4 by decide)

theorem probeFirst (b : Byte) : Statement (.probeFirst b) := by
  refine ⟨_, .tail _ (.tail _ (.tail _ (.tail _ (.tail _ (.head _))))), rfl, ?_⟩
  exact accepts_of_upper (p := 0) (m := 0x1FF) (show ((0#2 ++ 0#5 ++ 0#2).toNat &&& 0x1FF) = 0 by decide)

theorem probeEnd (k : Cnt) : Statement (.probeEnd k) := by
  refine ⟨_, .tail _ (.tail _ (.tail _ (.tail _ (.tail _ (.tail _ (.head _)))))), rfl, ?_⟩
  exact accepts_of_upper (p := 1) (m := 0x183) (by revert k; decide)

theorem payloadLast (b : Byte) : Statement (.payloadLast b) := by
  refine ⟨_, .tail _ (.tail _ (.tail _ (.tail _ (.tail _ (.tail _ (.tail _ (.head _))))))), rfl, ?_⟩
  exact accepts_of_upper (p := 0xD4) (m := 0x1FF) (show ((1#2 ++ 21#5 ++ 0#2).toNat &&& 0x1FF) = 0xD4 by decide)

theorem payloadByte (i : Cnt) (b : Byte) : Statement (.payloadByte i b) := by
  refine ⟨_, .tail _ (.tail _ (.tail _ (.tail _ (.tail _ (.tail _ (.tail _ (.tail _ (.head _)))))))), rfl, ?_⟩
  exact accepts_of_upper (p := 0x80) (m := 0x183)
    (by show ((1#2 ++ i ++ 0#2).toNat &&& 0x183) = 0x80; revert i; decide)

theorem payloadEnd (k : Cnt) : Statement (.payloadEnd k) := by
  refine ⟨_, .tail _ (.tail _ (.tail _ (.tail _ (.tail _ (.tail _ (.tail _ (.tail _ (.tail _ (.head _))))))))), rfl, ?_⟩
  exact accepts_of_upper (p := 0x81) (m := 0x183) (by revert k; decide)

/-- A row of format `F` accepts every frame. -/
theorem accepts_frame (o : Op) (f : BitVec 176) : (Row.mk o false 0 0).accepts (.frame f) = true := by
  simp [Row.accepts]

theorem frameComplete : Statement .frameComplete :=
  ⟨⟨.frameComplete, false, 0, 0⟩, by simp [opcodeRows], rfl, accepts_frame _⟩

theorem validate : Statement .validate :=
  ⟨⟨.validate, false, 0, 0⟩, by simp [opcodeRows], rfl, accepts_frame _⟩

theorem decodeQuat : Statement .decodeQuat :=
  ⟨⟨.decodeQuat, false, 0, 0⟩, by simp [opcodeRows], rfl, accepts_frame _⟩

theorem decodeGyro : Statement .decodeGyro :=
  ⟨⟨.decodeGyro, false, 0, 0⟩, by simp [opcodeRows], rfl, accepts_frame _⟩

theorem decodeAccel : Statement .decodeAccel :=
  ⟨⟨.decodeAccel, false, 0, 0⟩, by simp [opcodeRows], rfl, accepts_frame _⟩

theorem normalize (v : Half) : Statement (.normalize v) :=
  ⟨⟨.normalize, false, 0, 0⟩, by simp [opcodeRows], rfl, accepts_frame _⟩

end Sys2Proof.Laws.RowMatch
end

