-- ==== Sys2Proof/Tests/Slice0.lean ====
section
/-! SUPPORT. Small checks of one step each, the words written out from the spec's encoding, the smoke test of well-formedness, and
a witness for every statement that has hypotheses. Each expected value is from the rule or the vector its comment names. -/

namespace Sys2Proof.Tests

open Sys2Proof Sys2Proof.Machine

/-! ## Helpers -/

/-- The state after reset, moved to a position. -/
def pos (ph : Phase) (c : Cnt) : State := { State.reset with phase := ph, cnt := c }

/-- In `(PROBE, 1)` with a first byte held. -/
def probe1 (b : Byte) : State := { pos .probe 1 with sop0 := b }

/-- A position with a buffer. -/
def withBuf (s : State) (f : Frame) : State := { s with buf := f }

/-- One edge to come. -/
def atEdge (s : State) (g : EdgeIn) : State := { s with edges := [g] }

/-- An edge that presents a byte. -/
def byteEdge (b : Byte) : EdgeIn := ⟨false, true, b, false, false, false⟩

/-- An edge that presents nothing. -/
def idleEdge (ready : Bool) : EdgeIn := ⟨false, false, 0, false, false, ready⟩

/-- An outcome held for the consumer, and counted as emitted. -/
def holding (s : State) (r : Report) : State := s.emit r

/-- A held register with the given status. -/
def holdingStatus (st : BitVec 3) : State := { State.reset with out := { State.reset.out with valid := true, status := st } }

/-- The next state, if the outcome is one. -/
def nextOf : Host.Outcome State Fault Refusal → Option State
  | .next t => some t
  | .fault _ => none
  | .refused _ => none

/-- The position and the outcomes emitted. -/
def seen (o : Host.Outcome State Fault Refusal) : Option (Phase × Cnt × List Report) :=
  (nextOf o).map fun t => (t.phase, t.cnt, t.emitted)

/-- The frame of packet `P` of 95_test_vectors.md. -/
def frameP : Frame :=
  #v[0x40, 0x00, 0xC0, 0x00, 0x30, 0x39, 0xFF, 0xFF, 0x34, 0x12, 0x00, 0x80, 0xFF, 0x7F, 0x01, 0x00, 0xFE, 0xFF, 0x64, 0x00,
    0xB7, 0x08]

/-- The ten words of `Sample(P)` of 95_test_vectors.md. -/
def sampleP : Sample :=
  ⟨0x3EC0E400, 0xBF000000, 0x3F000000, 0xB8000000, 0x3E11A000, 0xBF800000, 0x3F7FFE00, 0x38000000, 0xB8800000, 0x3B480000⟩

/-- The frame of packet `Z`: all zero, checksum `AA 00`. -/
def frameZ : Frame := (Vector.replicate 22 0).set 20 0xAA

/-! ## Well-formedness: each check refuses an ill-formed operation (R73, R91) -/

theorem test_wf_failedHold_reset : (Instr.failedHold .reset).wellFormed = false := by decide
theorem test_wf_xportFail_probe : (Instr.xportFail .probe 2).wellFormed = false := by decide
theorem test_wf_xportFail_payload : (Instr.xportFail .payload 22).wellFormed = false := by decide
theorem test_wf_probeMiss_sop : (Instr.probeMiss 0x55 0x55).wellFormed = false := by decide
theorem test_wf_probeEnd : (Instr.probeEnd 2).wellFormed = false := by decide
theorem test_wf_payloadByte : (Instr.payloadByte 21 0).wellFormed = false := by decide
theorem test_wf_payloadEnd : (Instr.payloadEnd 22).wellFormed = false := by decide

/-! ## Decoding: words written out from R72, one for each operation -/

/-- V-P2 step 0: kind `11` at bits 17:16. -/
theorem test_decode_reset : decodeTableWord 32 0x0030000 = some .reset := by decide
/-- Phase `10` at bits 24:23, data `55`. -/
theorem test_decode_failedHold : decodeTableWord 32 0x1000055 = some (.failedHold (.byte 0x55)) := by decide
/-- Phase `01`, count 2, kind `10`. -/
theorem test_decode_xportFail : decodeTableWord 32 0x08A0000 = some (.xportFail .payload 2) := by decide
/-- V-P2 step 4. -/
theorem test_decode_probeMatch : decodeTableWord 32 0x0045555 = some .probeMatch := by decide
/-- V-P2 step 28. -/
theorem test_decode_probeMiss : decodeTableWord 32 0x004B708 = some (.probeMiss 0xB7 0x08) := by decide
/-- V-P2 step 1. -/
theorem test_decode_probeFirst : decodeTableWord 32 0x0000012 = some (.probeFirst 0x12) := by decide
/-- V-P5, last step. -/
theorem test_decode_probeEnd : decodeTableWord 32 0x0055500 = some (.probeEnd 1) := by decide
/-- V-F1. -/
theorem test_decode_payloadLast : decodeTableWord 32 0x0D40008 = some (.payloadLast 0x08) := by decide
/-- V-P2 steps 31 to 51, the last. -/
theorem test_decode_payloadByte : decodeTableWord 32 0x0D0007E = some (.payloadByte 20 0x7E) := by decide
/-- Phase `01`, count 21, kind `01`. -/
theorem test_decode_payloadEnd : decodeTableWord 32 0x0D50000 = some (.payloadEnd 21) := by decide
/-- Any 176-bit frame (R73, R115). -/
theorem test_decode_frame : decodeTableWord 176 0x4000C0003039FFFF3412 = some .frameComplete := by decide
/-- The rows of format `F` have no words of their own (log entry 14). -/
theorem test_encode_frame_rows : encode .validate = none ∧ encode .decodeQuat = none ∧ encode .decodeGyro = none ∧
    encode .decodeAccel = none ∧ encode (.normalize 1) = none := by decide
/-- `Reset` decodes at any count (R73: in any phase), here 22 in `PROBE`. -/
theorem test_decode_reset_any_count : decodeTableWord 32 0x05B0000 = some .reset := by decide
/-- Phase `11` selects no row (R75). -/
theorem test_decode_phase_11 : decodeTableWord 32 0x1800000 = none ∧ decodeTableWord 32 0x1830000 = none := by decide
/-- A probe count of 2 (R91). -/
theorem test_decode_probe_count_2 : decodeTableWord 32 0x0080000 = none := by decide

/-! ## One step of each operation -/

/-- 40_framer.md R93, example. -/
theorem test_probeFirst : seen (exec (.probeFirst 0x55) (pos .probe 0)) = some (.probe, 1, []) := by decide
/-- R93: the byte is stored untested. -/
theorem test_probeFirst_stores : (nextOf (exec (.probeFirst 0x12) State.reset)).map (·.sop0) = some 0x12 := by decide
/-- R94, example. -/
theorem test_probeMatch : seen (takeEvent (.byte 0x55) (probe1 0x55)) = some (.payload, 0, []) := by decide
/-- R95, example: `AA 55`. -/
theorem test_probeMiss : seen (takeEvent (.byte 0x55) (probe1 0xAA)) = some (.probe, 0, [.noSop]) := by decide
/-- V-E1: the port fields of `NoSop`. -/
theorem test_probeMiss_port :
    (nextOf (exec (.probeMiss 0x55 0xAA) (probe1 0x55))).map (fun t => (t.out.status, t.out.phase, t.out.count)) =
      some (0b000, 0, 2) := by decide
/-- R96, example. -/
theorem test_payloadByte : (nextOf (takeEvent (.byte 0x12) (pos .payload 0))).map (fun t => (t.readBuf 0, t.cnt)) =
    some (0x12, 1) := by decide
/-- R96: `i = 20`. -/
theorem test_payloadByte_20 : (nextOf (takeEvent (.byte 0x7E) (pos .payload 20))).map (fun t => (t.readBuf 20, t.cnt)) =
    some (0x7E, 21) := by decide
/-- V-F1: the last byte of `P`. -/
theorem test_payloadLast_sample :
    seen (takeEvent (.byte 0x08) (withBuf (pos .payload 21) (frameP.set 21 0))) = some (.probe, 0, [.sample sampleP]) := by decide
/-- L1-2: checksum `00 00`. -/
theorem test_payloadLast_mismatch : seen (takeEvent (.byte 0) (pos .payload 21)) = some (.probe, 0, [.checksumMismatch]) := by
  decide
/-- R98, example. -/
theorem test_probeEnd : seen (takeEvent .endRead (probe1 0x55)) = some (.probe, 0, [.shortRead .probe 1]) := by decide
/-- L1-3. -/
theorem test_payloadEnd : seen (takeEvent .endRead (pos .payload 21)) = some (.probe, 0, [.shortRead .payload 21]) := by decide
/-- V-E4: the port fields. -/
theorem test_payloadEnd_port :
    (nextOf (exec (.payloadEnd 1) (pos .payload 1))).map (fun t => (t.out.status, t.out.phase, t.out.count)) =
      some (0b010, 1, 1) := by decide
/-- R100, example. -/
theorem test_xportFail : seen (takeEvent .fail (pos .payload 2)) = some (.failed, 0, [.transportFailure .payload 2]) := by decide
/-- V-F7b. -/
theorem test_xportFail_port :
    (nextOf (exec (.xportFail .probe 1) (probe1 0x55))).map (fun t => (t.out.status, t.out.phase, t.out.count)) =
      some (0b100, 0, 1) := by decide
/-- V-F8: stuck, both bytes unconsumed. -/
theorem test_failedHold :
    runEvents (pos .failed 0) (listing [0x55, 0x55]) = .stuck (pos .failed 0) (listing [0x55, 0x55]) := by decide
/-- R101: no step. -/
theorem test_failedHold_holds : nextOf (exec (.failedHold .endRead) (pos .failed 0)) = some (pos .failed 0) := by decide
/-- V-R2: `Reset` leaves `FAILED`. -/
theorem test_reset : seen (takeEvent .reset (pos .failed 0)) = some (.probe, 0, []) := by decide
/-- R156: a held outcome is lost. -/
theorem test_reset_drops_held : (nextOf (exec .reset (holding State.reset .noSop))).map (fun t => (t.out.valid, t.received)) =
    some (false, []) := by decide
/-- L1-1. -/
theorem test_frameComplete : (nextOf (exec .frameComplete (withBuf State.reset frameZ))).map (·.emitted) =
    some [.sample ⟨0, 0, 0, 0, 0, 0, 0, 0, 0, 0⟩] := by decide
/-- V-C3: the checksum bytes swapped. -/
theorem test_frameComplete_swapped :
    (nextOf (exec .frameComplete (withBuf State.reset (Vector.replicate 22 0 |>.set 21 0xAA)))).map (·.emitted) =
      some [.checksumMismatch] := by decide
/-- V-C9: the sum is 16 bits wide. -/
theorem test_validate : (nextOf (exec .validate (withBuf State.reset
    ((Vector.replicate 22 0x10).set 20 0xEA |>.set 21 0x01)))).map (·.nets.chkOk) = some true := by decide
/-- V-C2: the largest sum. -/
theorem test_validate_largest : (nextOf (exec .validate (withBuf State.reset
    ((Vector.replicate 22 0xFF).set 20 0x96 |>.set 21 0x14)))).map (·.nets.chkOk) = some true := by decide
/-- V-D3a: big-endian, and `a` is `qz`. -/
theorem test_decodeQuat : (nextOf (exec .decodeQuat (withBuf State.reset
    ((Vector.replicate 22 0).set 0 0x12 |>.set 1 0x34)))).map (·.nets.quat) = some ⟨0, 0, 0x3E11A000, 0⟩ := by decide
/-- V-D2c: `c` is `qx`. -/
theorem test_decodeQuat_x : (nextOf (exec .decodeQuat (withBuf State.reset
    ((Vector.replicate 22 0).set 4 0x40)))).map (·.nets.quat) = some ⟨0x3F000000, 0, 0, 0⟩ := by decide
/-- V-D3b: little-endian. -/
theorem test_decodeGyro : (nextOf (exec .decodeGyro (withBuf State.reset
    ((Vector.replicate 22 0).set 8 0x12 |>.set 9 0x34)))).map (·.nets.gyro) = some ⟨0x3ED04800, 0, 0⟩ := by decide
/-- The gyro fields of `P`. -/
theorem test_decodeGyro_p : (nextOf (exec .decodeGyro (withBuf State.reset frameP))).map (·.nets.gyro) =
    some ⟨0x3E11A000, 0xBF800000, 0x3F7FFE00⟩ := by decide
/-- V-D4. -/
theorem test_decodeAccel : (nextOf (exec .decodeAccel (withBuf State.reset
    ((Vector.replicate 22 0xFF).set 14 0 |>.set 15 0x80 |>.set 17 0x7F)))).map (·.nets.accel) =
      some ⟨0xBF800000, 0x3F7FFE00, 0xB8000000⟩ := by decide
/-- The accel fields of `P`. -/
theorem test_decodeAccel_p : (nextOf (exec .decodeAccel (withBuf State.reset frameP))).map (·.nets.accel) =
    some ⟨0x38000000, 0xB8800000, 0x3B480000⟩ := by decide
/-- V-N: `12345`, and the smallest integer. -/
theorem test_normalize : (nextOf (exec (.normalize 0x3039) State.reset)).map (·.nets.norm) = some 0x3EC0E400 := by decide
theorem test_normalize_min : (nextOf (exec (.normalize 0x8000) State.reset)).map (·.nets.norm) = some 0xBF800000 := by decide

/-! ## The port -/

/-- V-T1 edge 8: `rx_fail` outranks `rx_end`. -/
theorem test_port_fail_over_end : seen (step (atEdge State.reset ⟨false, true, 0, true, true, false⟩)) =
    some (.failed, 0, [.transportFailure .probe 0]) := by decide
/-- V-T1 edge 11: the byte is not taken. -/
theorem test_port_reset : seen (step (atEdge (pos .failed 0) ⟨true, true, 0x55, false, false, false⟩)) =
    some (.probe, 0, []) := by decide
/-- V-T1 edges 3 and 4: a stall, then the hand-over. -/
theorem test_port_stall : nextOf (step (atEdge (holding State.reset .noSop) (byteEdge 0x55))) =
    some (holding State.reset .noSop) := by rfl
theorem test_port_handOver : (nextOf (step (atEdge (holding State.reset .noSop) (idleEdge true)))).map
    (fun t => (t.out.valid, t.received)) = some (false, [.noSop]) := by decide
/-- V-T1: `rx_remaining` at edges 1, 2 and 9. -/
theorem test_port_remaining : (pos .probe 0).rxRemaining = 2 ∧ (pos .probe 1).rxRemaining = 1 ∧
    (pos .failed 0).rxRemaining = 0 := by decide

/-! ## Witnesses: a state and operands that meet the hypotheses of each statement, clause by clause -/

theorem witness_probeFirst : State.reset.phase = .probe ∧ State.reset.cnt = 0 := by decide
theorem witness_probeMatch : (probe1 0x55).phase = .probe ∧ (probe1 0x55).cnt = 1 := by decide
theorem witness_probeMiss : (probe1 0xAA).phase = .probe ∧ (probe1 0xAA).cnt = 1 ∧ (probe1 0xAA).sop0 = 0xAA ∧
    ¬ ((0xAA : Byte) = 0x55 ∧ (0x55 : Byte) = 0x55) := by decide
theorem witness_payloadByte : (0 : Cnt).toNat ≤ 20 ∧ (pos .payload 0).phase = .payload ∧ (pos .payload 0).cnt = 0 ∧
    (20 : Cnt).toNat ≤ 20 ∧ (pos .payload 20).cnt = 20 := by decide
theorem witness_payloadByteBeyond : 22 ≤ (22 : Cnt).toNat ∧ 22 ≤ (31 : Cnt).toNat ∧ (pos .payload 22).phase = .payload ∧
    (pos .payload 22).cnt = 22 := by decide
theorem witness_payloadLast : (pos .payload 21).phase = .payload ∧ (pos .payload 21).cnt = 21 := by decide
theorem witness_probeEnd : (pos .probe 0).phase = .probe ∧ (pos .probe 0).cnt = 0 ∧ (probe1 0x55).cnt = 1 ∧
    (1 : Cnt).toNat ≤ 1 := by decide
theorem witness_payloadEnd : (pos .payload 0).phase = .payload ∧ (pos .payload 0).cnt = 0 ∧ (pos .payload 21).cnt = 21 ∧
    (21 : Cnt).toNat ≤ 21 := by decide
theorem witness_xportFail : (pos .probe 1).phase = .probe ∧ (1 : Cnt).toNat < ReadPhase.probe.len ∧
    (pos .payload 21).phase = .payload ∧ (21 : Cnt).toNat < ReadPhase.payload.len := by decide
theorem witness_failedHold : (pos .failed 0).phase = .failed ∧ Event.endRead ≠ .reset := by decide
theorem witness_reset : (pos .failed 0).phase = .failed ∧ takeEvent .reset (pos .failed 0) ≠ .next (pos .failed 0) := by
  refine ⟨by decide, fun h => ?_⟩
  have := congrArg (fun o => (nextOf o).map (·.phase)) h
  exact absurd this (by decide)
theorem witness_frameComplete : chkOk (withBuf State.reset frameP).buf = true ∧ chkOk State.reset.buf = false := by decide
theorem witness_singleByteChange : chkOk frameZ = true ∧ (0 : Fin 22).val < 20 ∧ (1 : Byte) ≠ frameZ[0] ∧
    (19 : Fin 22).val < 20 ∧ (0x80 : Byte) ≠ frameZ[19] := by decide
theorem witness_checksumByteChange : chkOk frameZ = true ∧ 20 ≤ (20 : Fin 22).val ∧ (0xAB : Byte) ≠ frameZ[20] ∧
    20 ≤ (21 : Fin 22).val ∧ (1 : Byte) ≠ frameZ[21] := by decide
/-- V-C6 for the sum, V-C5 for the reordering, and a data change with its checksum. -/
theorem witness_undetected : chkOk frameP = true ∧
    ((frameP.toList.take 20).map BitVec.toNat).sum =
      (((frameP.set 0 0x3F |>.set 1 0x01).toList.take 20).map BitVec.toNat).sum ∧
    (frameP.toList.take 20).Perm ((frameP.set 0 0x00 |>.set 1 0x40).toList.take 20) ∧
    chkField (frameZ.set 0 1 |>.set 20 0xAB) =
      chkField frameZ + (chkSum (frameZ.set 0 1 |>.set 20 0xAB) - chkSum frameZ) := by decide
theorem witness_remaining : (pos .probe 1).posOk = true ∧ (pos .payload 21).posOk = true ∧ (pos .failed 0).posOk = true := by
  decide
theorem witness_portPriority : (byteEdge 0).rst = false ∧ State.reset.rxReady = true ∧ (byteEdge 0).rxValid = true ∧
    (byteEdge 0).rxFail = false ∧ (byteEdge 0).rxEnd = false ∧ EdgeIn.ofReset.rst = true ∧
    (EdgeIn.ofSel ⟨0, 0, 0b10, 0, 0⟩).rxFail = true ∧ (EdgeIn.ofSel ⟨0, 0, 0b01, 0, 0⟩).rxEnd = true := by decide
/-- A `Reset`, a beat, no event presented, and an outcome held. -/
theorem witness_beats : (atEdge (pos .failed 0) EdgeIn.ofReset).inv = true ∧ EdgeIn.ofReset.rst = true ∧
    (atEdge State.reset (byteEdge 0)).inv = true ∧ (atEdge State.reset (byteEdge 0)).rxReady = true ∧
    (atEdge State.reset (idleEdge true)).inv = true ∧ (idleEdge true).rxValid = false ∧
    (atEdge (holding State.reset .noSop) (byteEdge 0)).inv = true ∧
    (atEdge (holding State.reset .noSop) (byteEdge 0)).rxReady = false := by decide
theorem witness_held : (atEdge (holding State.reset .noSop) (idleEdge true)).edges = [idleEdge true] ∧
    (holding State.reset .noSop).out.valid = true ∧ (holding State.reset .noSop).out.report? = some .noSop ∧
    (idleEdge true).rst = false ∧ (idleEdge true).outReady = true ∧ (idleEdge false).outReady = false := by decide
theorem witness_reservedStatus : (holdingStatus 5).out.valid = true ∧ 5 ≤ (holdingStatus 5).out.status.toNat ∧
    5 ≤ (holdingStatus 7).out.status.toNat ∧ (idleEdge true).rst = false ∧ (idleEdge true).outReady = true := by decide
theorem witness_idle : State.reset.edges = [] ∧ (idleEdge false).rst = false ∧ (idleEdge false).rxValid = false ∧
    State.reset.out.valid = false ∧ (holding State.reset .noSop).out.valid = true ∧ (idleEdge false).outReady = false := by decide
/-- A byte, and a `Reset`. -/
theorem witness_stepRuns : delivers (byteEdge 0x12) State.reset (.byte 0x12) ∧
    decode (.sel (State.reset.selector (.byte 0x12)).word) = .ok (.probeFirst 0x12) ∧
    delivers EdgeIn.ofReset State.reset .reset ∧ decode (.sel (State.reset.selector .reset).word) = .ok .reset :=
  ⟨.inr ⟨rfl, rfl, rfl, rfl⟩, rfl, .inl ⟨rfl, rfl⟩, rfl⟩
theorem witness_decodeEncode : (Instr.payloadByte 20 0xFF).wellFormed = true ∧
    encode (.payloadByte 20 0xFF) = some (.sel 0x0D000FF) := by decide
theorem witness_opcodeTable : decode (.sel 0x0D40008) = .ok (.payloadLast 0x08) ∧
    (Sel.ofWord 0x0D40008).phase ≠ 0b11 ∧ (Sel.ofWord 0x0D40008).phase = 0b01 ∧ (Sel.ofWord 0x0D40008).cnt.toNat ≤ 21 ∧
    (Sel.ofWord 0x1800000).phase = 0b11 ∧ (Sel.ofWord 0x0080000).kind ≠ 0b11 ∧ (Sel.ofWord 0x0080000).phase = 0b00 ∧
    2 ≤ (Sel.ofWord 0x0080000).cnt.toNat ∧ 22 ≤ (Sel.ofWord 0x0D80000).cnt.toNat ∧
    (Sel.ofWord 0x05B0000).phase ≠ 0b11 ∧ (Sel.ofWord 0x05B0000).kind = 0b11 ∧ (Sel.ofWord 0x05B0000).cnt = 22 :=
  ⟨rfl, by decide⟩
/-- A selector word, and a frame in the 176 bits of format `F`. -/
theorem witness_placedWord : decodeTableWord 32 0x1000055 = some (.failedHold (.byte 0x55)) ∧ 17 < 32 ∧ 32 < 176 ∧
    0x4000C0003039FFFF3412 < 2 ^ 176 := by decide
theorem witness_everyStep : State.reset.inv = true ∧ ∃ t, step (atEdge State.reset (byteEdge 0x55)) = .next t := ⟨by decide, _, rfl⟩
theorem witness_neverStop : (atEdge (withBuf (pos .payload 21) frameP) (byteEdge 0x08)).inv = true := by decide
theorem witness_eventStep : State.reset.posOk = true ∧ State.reset.phase ≠ .failed ∧ (pos .failed 0).posOk = true ∧
    (pos .failed 0).phase = .failed := by decide
theorem witness_portDelivers : (atEdge (holding State.reset .noSop) (idleEdge true)).inv = true ∧
    (atEdge (holding State.reset .noSop) (idleEdge true)).delivered = true ∧
    (atEdge (holding State.reset .noSop) (idleEdge true)).nextIsReset = false ∧
    ∃ t, step (atEdge (holding State.reset .noSop) (idleEdge true)) = .next t :=
  ⟨by decide, by decide, by decide, _, rfl⟩
theorem witness_tiled : (atEdge State.reset (byteEdge 0x55)).inv = true ∧ (atEdge State.reset (byteEdge 0x55)).tiled = true ∧
    (atEdge State.reset (byteEdge 0x55)).nextIsReset = false ∧ ∃ t, step (atEdge State.reset (byteEdge 0x55)) = .next t :=
  ⟨by decide, by decide, by decide, _, rfl⟩
theorem witness_atMostOne : ∃ t, step (atEdge (probe1 0xAA) (byteEdge 0x55)) = .next t := ⟨_, rfl⟩
theorem witness_samples : (atEdge (withBuf (pos .payload 21) frameP) (byteEdge 0x08)).inv = true ∧
    ∃ t, step (atEdge (withBuf (pos .payload 21) frameP) (byteEdge 0x08)) = .next t ∧ t.emitted = [] ++ [.sample sampleP] :=
  ⟨by decide, _, rfl, by decide⟩
/-- A transport failure, and another outcome. -/
theorem witness_outcomesDecide : (atEdge State.reset ⟨false, true, 0, false, true, false⟩).inv = true ∧
    (∃ t, step (atEdge State.reset ⟨false, true, 0, false, true, false⟩) = .next t ∧
      t.emitted = [] ++ [.transportFailure .probe 0]) ∧
    (atEdge (probe1 0xAA) (byteEdge 0x55)).inv = true ∧
    (∃ t, step (atEdge (probe1 0xAA) (byteEdge 0x55)) = .next t ∧ t.emitted = [] ++ [.noSop]) ∧
    ∀ ph k, Report.noSop ≠ .transportFailure ph k :=
  ⟨by decide, ⟨_, rfl, by decide⟩, by decide, ⟨_, rfl, by decide⟩, fun _ _ h => by cases h⟩
theorem witness_onlyReset : (atEdge (pos .failed 0) (byteEdge 0x55)).phase = .failed ∧
    (∀ g ∈ (atEdge (pos .failed 0) (byteEdge 0x55)).edges, g.rst = false) ∧
    ∃ t, Host.Core.run Sys2Proof.core 2 (atEdge (pos .failed 0) (byteEdge 0x55)) = .next t :=
  ⟨by decide, by decide, _, rfl⟩
theorem witness_payloadBytes : (pos .payload 0).phase = .payload ∧
    (pos .payload 0).cnt.toNat + (List.replicate 21 (0x55 : Byte)).length ≤ 21 ∧
    (pos .payload 21).cnt.toNat + ([] : List Byte).length ≤ 21 := by decide
/-- The start of an attempt: for the packets, the probe pairs and the parity. -/
theorem witness_attemptStart : State.reset.phase = .probe ∧ State.reset.cnt = 0 := by decide
theorem witness_otherPairs : State.reset.phase = .probe ∧ State.reset.cnt = 0 ∧
    ¬ ((0x55 : Byte) = 0x55 ∧ (0xAA : Byte) = 0x55) := by decide
/-- Two states of one phase with different leftovers: runs that finish, from each phase, and a run that ends stuck. -/
theorem witness_leftovers :
    (∀ ph, (pos ph 0).cnt = 0 ∧ (withBuf (pos ph 0) frameP).cnt = 0 ∧ (pos ph 0).phase = (withBuf (pos ph 0) frameP).phase) ∧
    (∃ t, runEvents (pos .probe 0) (listing [0xAA, 0x55]) = .finished t) ∧
    (∃ t, runEvents (pos .payload 0) [.byte 0x01, .endRead] = .finished t) ∧
    (∃ t, runEvents (pos .failed 0) [.reset] = .finished t) ∧
    ∃ t, runEvents (pos .probe 0) [.fail, .byte 0x55] = .stuck t [.byte 0x55] :=
  ⟨fun _ => ⟨rfl, rfl, rfl⟩, ⟨_, rfl⟩, ⟨_, rfl⟩, ⟨_, rfl⟩, _, rfl⟩

end Sys2Proof.Tests
end

/-! # Proofs: the control invariant, the delivery at the port, and the leftovers (10_state.md) -/

section
/-! ## What the shared operations do to the output register, the nets and the position -/

namespace Sys2Proof.Machine

/-- A consumer reads back the outcome that the register holds (R81, R83). -/
@[simp] theorem OutReg.report?_hold (r : Report) (n : Nat) : (OutReg.hold r n).report? = some r := by
  cases r <;> simp [OutReg.report?, OutReg.hold, Report.status, Report.phaseBit, Report.count, Report.words]

/-- The outcome that a completed frame reports (R115). -/
def frameReport (f : Frame) : Report :=
  if chkOk f then .sample (decodeFrame f) else .checksumMismatch

/-! `State.completeFrame`, field by field; `phase` and `cnt` are left out, as `PAYLOAD_LAST` sets both (R97). -/

@[simp] theorem State.completeFrame_emitted (s : State) :
    s.completeFrame.emitted = s.emitted ++ [frameReport s.buf] := by
  rw [State.completeFrame_eq, frameReport]; split <;> rfl

@[simp] theorem State.completeFrame_out (s : State) :
    s.completeFrame.out = OutReg.hold (frameReport s.buf) s.free := by
  rw [State.completeFrame_eq, frameReport]; split <;> rfl

@[simp] theorem State.completeFrame_nets (s : State) : s.completeFrame.nets = Nets.idle := by
  rw [State.completeFrame_eq]; split <;> rfl

@[simp] theorem State.completeFrame_consumed (s : State) : s.completeFrame.consumed = s.consumed := by
  rw [State.completeFrame_eq]; split <;> rfl

@[simp] theorem State.completeFrame_received (s : State) : s.completeFrame.received = s.received := by
  rw [State.completeFrame_eq]; split <;> rfl

/-! The predicates of Safety.lean -/

theorem State.inv_iff (s : State) : s.inv = true ↔ s.posOk = true ∧ s.heldOk = true ∧ s.nets = Nets.idle := by
  simp only [State.inv, Bool.and_eq_true, decide_eq_true_eq, and_assoc]

theorem State.delivered_iff (s : State) : s.delivered = true ↔ s.emitted = s.received ++ s.held :=
  decide_eq_true_iff

/-- The ranges of R27 speak of the position alone. -/
theorem State.posOk_congr {s t : State} (hp : t.phase = s.phase) (hc : t.cnt = s.cnt) : t.posOk = s.posOk := by
  simp only [State.posOk, hp, hc]

/-- A count of 0 is within the range of every phase. -/
theorem State.posOk_of_cnt_zero {s : State} (hc : s.cnt = 0) : s.posOk = true := by
  cases hp : s.phase <;> simp [State.posOk, hp, hc]

theorem State.heldOk_of_not_valid {s : State} (h : s.out.valid = false) : s.heldOk = true := by
  simp [State.heldOk, h]

theorem State.heldOk_of_hold {s : State} {r : Report} {n : Nat} (h : s.out = OutReg.hold r n) : s.heldOk = true := by
  simp [State.heldOk, h]

theorem State.held_of_not_valid {s : State} (h : s.out.valid = false) : s.held = [] := by
  simp [State.held, h]

theorem State.held_of_report {s : State} {r : Report} (hv : s.out.valid = true) (hr : s.out.report? = some r) :
    s.held = [r] := by
  simp [State.held, hv, hr]

/-- What is held, if the register is known to hold no reserved status, is an outcome. -/
theorem State.report_of_heldOk {s : State} (h : s.heldOk = true) (hv : s.out.valid = true) :
    ∃ r, s.out.report? = some r := by
  simpa [State.heldOk, hv, Option.isSome_iff_exists] using h

end Sys2Proof.Machine
end

section
/-! ## What an event step keeps -/

namespace Sys2Proof.Machine

variable {s t : State} {e : Event}

/-- The ten cases are also sufficient: each is what the event step answers. -/
theorem takeEvent_of_eventStep (h : s.posOk = true) (ht : EventStep s e t) : takeEvent e s = .next t := by
  cases ht with
  | reset => exact takeEvent_reset s
  | failedHold _ hp he => exact takeEvent_failed hp he
  | xportFail ph hp =>
    have hop : tableOp s .fail = .xportFail ph s.cnt := by cases ph <;> simp only [tableOp, hp]
    exact takeEvent_as h hop
  | probeFirst b hp hc =>
    have hop : tableOp s (.byte b) = .probeFirst b := by simp [tableOp, hp, hc]
    exact takeEvent_as h hop
  | probeMatch b hp hc hm =>
    have hop : tableOp s (.byte b) = .probeMatch := by simp [tableOp, hp, hc, hm]
    exact takeEvent_as h hop
  | probeMiss b hp hc hm =>
    have hop : tableOp s (.byte b) = .probeMiss s.sop0 b := by simp only [tableOp, hp, hc, if_neg hm]; rfl
    exact takeEvent_as h hop
  | probeEnd hp =>
    have hop : tableOp s .endRead = .probeEnd s.cnt := by simp only [tableOp, hp]
    exact takeEvent_as h hop
  | payloadByte b hp hc =>
    have hop : tableOp s (.byte b) = .payloadByte s.cnt b := by
      have hne : s.cnt ≠ 21 := fun hc' => by simp [hc'] at hc
      simp only [tableOp, hp, if_neg hne]
    have hlt : s.cnt.toNat < 22 := by omega
    simp only [takeEvent_as h hop, perform, exec, execPayloadByte, hlt, dif_pos, holdsEvent, Bool.false_eq_true, if_false]
  | payloadLast b hp hc =>
    have hop : tableOp s (.byte b) = .payloadLast b := by simp [tableOp, hp, hc]
    exact takeEvent_as h hop
  | payloadEnd hp =>
    have hop : tableOp s .endRead = .payloadEnd s.cnt := by simp only [tableOp, hp]
    exact takeEvent_as h hop

theorem EventStep.posOk (h : EventStep s e t) (hs : s.posOk = true) : t.posOk = true := by
  cases h with
  | failedHold => exact hs
  | probeFirst b hp => simp [State.posOk, hp]
  | payloadByte b hp hc =>
    have hlt : (s.cnt + 1).toNat < 22 := by bv_omega
    simpa [State.posOk, hp] using hlt
  | reset | xportFail | probeMatch | probeMiss | probeEnd | payloadLast | payloadEnd =>
    exact State.posOk_of_cnt_zero rfl

/-- The nets are idle between steps (log entry 13). -/
theorem EventStep.nets (h : EventStep s e t) (hs : s.nets = Nets.idle) : t.nets = Nets.idle := by
  cases h with
  | payloadLast => exact State.completeFrame_nets _
  | reset | failedHold | xportFail | probeFirst | probeMatch | probeMiss | probeEnd | payloadByte | payloadEnd =>
    exact hs

/-- An event step hands nothing over. -/
theorem EventStep.received (h : EventStep s e t) : t.received = s.received := by
  cases h with
  | payloadLast => exact State.completeFrame_received _
  | reset | failedHold | xportFail | probeFirst | probeMatch | probeMiss | probeEnd | payloadByte | payloadEnd => rfl

/-- An event is taken unless it is held in `FAILED` (R40, R101). -/
theorem EventStep.consumed (h : EventStep s e t) (he : s.phase ≠ .failed ∨ e = .reset) :
    t.consumed = s.consumed ++ [e] := by
  cases h with
  | failedHold _ hp hne => exact absurd he (not_or.mpr ⟨not_not.mpr hp, hne⟩)
  | payloadLast b => simp
  | reset | xportFail | probeFirst | probeMatch | probeMiss | probeEnd | payloadByte | payloadEnd => rfl

/-- What an event step does at the port: it emits one outcome and holds that outcome (R88), or it emits none and leaves the
register alone or clears it (R153). -/
theorem EventStep.port (h : EventStep s e t) :
    (∃ r n, t.emitted = s.emitted ++ [r] ∧ t.out = OutReg.hold r n) ∨
    (t.emitted = s.emitted ∧ (t.out = s.out ∨ t.out.valid = false)) := by
  cases h with
  | reset => exact .inr ⟨rfl, .inr rfl⟩
  | failedHold | probeFirst | probeMatch | payloadByte => exact .inr ⟨rfl, .inl rfl⟩
  | xportFail | probeMiss | probeEnd | payloadEnd => exact .inl ⟨_, _, rfl, rfl⟩
  | payloadLast => exact .inl ⟨_, _, State.completeFrame_emitted _, State.completeFrame_out _⟩

theorem EventStep.heldOk (h : EventStep s e t) (hs : s.heldOk = true) : t.heldOk = true := by
  obtain ⟨r, n, -, hout⟩ | ⟨-, hout | hout⟩ := h.port
  · exact State.heldOk_of_hold hout
  · simpa only [State.heldOk, hout] using hs
  · exact State.heldOk_of_not_valid hout

theorem EventStep.inv (h : EventStep s e t) (hs : s.inv = true) : t.inv = true := by
  obtain ⟨hpos, hheld, hnets⟩ := s.inv_iff.mp hs
  exact t.inv_iff.mpr ⟨h.posOk hpos, h.heldOk hheld, h.nets hnets⟩

/-- An event taken while nothing is held keeps the delivery relation: an outcome it emits is the one held. -/
theorem EventStep.delivered (h : EventStep s e t) (hv : s.out.valid = false) (hs : s.delivered = true) :
    t.delivered = true := by
  rw [State.delivered_iff, State.held_of_not_valid hv, List.append_nil] at hs
  rw [State.delivered_iff, h.received, ← hs]
  obtain ⟨r, n, hem, hout⟩ | ⟨hem, hout⟩ := h.port
  · rw [hem, State.held_of_report (r := r) (by simp [hout]) (by simp [hout])]
  · have hv' : t.out.valid = false := hout.elim (fun ho => ho ▸ hv) id
    rw [hem, State.held_of_not_valid hv', List.append_nil]

end Sys2Proof.Machine
end

section
/-! ## What a step can do from a state that meets the invariant, and what it keeps -/

namespace Sys2Proof.Machine

/-- The four things a step can do: hold with no edge left, hold at an edge, hand the held outcome over, or take the event that the
edge delivers. -/
inductive StepMove (s : State) : State → Prop where
  | noEdge (he : s.edges = []) : StepMove s s
  | hold (g : EdgeIn) (rest : List EdgeIn) (he : s.edges = g :: rest) : StepMove s { s with edges := rest }
  | handOver (g : EdgeIn) (rest : List EdgeIn) (r : Report) (he : s.edges = g :: rest) (hv : s.out.valid = true)
      (hr : s.out.report? = some r) : StepMove s (State.handTo { s with edges := rest } r)
  | event (g : EdgeIn) (rest : List EdgeIn) (e : Event) (t : State) (he : s.edges = g :: rest) (hd : delivers g s e)
      (ht : EventStep { s with edges := rest } e t) : StepMove s t

variable {s t : State}

/-- From a state that meets the invariant every step is one of the four. -/
theorem step_moves (h : s.inv = true) : ∃ t, step s = .next t ∧ StepMove s t := by
  obtain ⟨hpos, hheld, -⟩ := s.inv_iff.mp h
  cases he : s.edges with
  | nil => exact ⟨s, step_nil he, .noEdge he⟩
  | cons g rest =>
    rw [step_cons he]
    obtain ⟨hr, hs⟩ | ⟨-, hv, -, hs⟩ | ⟨-, -, -, hs⟩ | ⟨hr, hv, hx, hs⟩ | ⟨-, -, -, hs⟩ :=
      edgeStep_cases g { s with edges := rest }
    · obtain ⟨t, ht, hc⟩ := takeEvent_cases (s := { s with edges := rest }) hpos .reset
      exact ⟨t, hs.trans ht, .event g rest .reset t he (.inl ⟨hr, rfl⟩) hc⟩
    · obtain ⟨r, hrep⟩ := State.report_of_heldOk hheld hv
      exact ⟨_, hs.trans (State.handOver_of_report hrep), .handOver g rest r he hv hrep⟩
    · exact ⟨_, hs, .hold g rest he⟩
    · obtain ⟨t, ht, hc⟩ := takeEvent_cases (s := { s with edges := rest }) hpos g.event
      exact ⟨t, hs.trans ht, .event g rest g.event t he (.inr ⟨hr, hv, hx, rfl⟩) hc⟩
    · exact ⟨_, hs, .hold g rest he⟩

/-- A step from a state that meets the invariant is one of the four. -/
theorem stepMove_of_step (h : s.inv = true) (ht : step s = .next t) : StepMove s t := by
  obtain ⟨u, hu, hm⟩ := step_moves h
  obtain rfl : t = u := by simpa [ht] using hu
  exact hm

theorem StepMove.inv (h : StepMove s t) (hs : s.inv = true) : t.inv = true := by
  cases h with
  | noEdge | hold => exact hs
  | handOver =>
    obtain ⟨hpos, -, hnets⟩ := s.inv_iff.mp hs
    exact (State.inv_iff _).mpr ⟨hpos, State.heldOk_of_not_valid rfl, hnets⟩
  | event g rest e _ _ _ ht => exact ht.inv hs

/-- Each of the four keeps the delivery relation, unless `rst` takes a held outcome away (R156). -/
theorem StepMove.delivered (h : StepMove s t) (hs : s.delivered = true)
    (hr : s.nextIsReset = true → s.out.valid = false) : t.delivered = true := by
  cases h with
  | noEdge | hold => exact hs
  | handOver g rest r _ hv hrep =>
    rw [State.delivered_iff, State.held_of_report hv hrep] at hs
    rw [State.delivered_iff, State.held_of_not_valid rfl, List.append_nil]
    exact hs
  | event g rest e _ he hd ht =>
    have hv : s.out.valid = false := by
      obtain ⟨hrst, -⟩ | ⟨-, hv, -⟩ := hd
      · exact hr (by simpa [State.nextIsReset, he] using hrst)
      · exact hv
    exact ht.delivered hv hs

/-- Settles O39: of the four things a step can do, only an event moves the position or emits, and each event step keeps the
invariant. -/
theorem everyStepKeepsTheInvariant : Obligations.EveryStepKeepsTheInvariant :=
  fun _ _ hs ht => (stepMove_of_step hs ht).inv hs

/-- Settles O42: a hand-over moves the held outcome to the received ones, and an event that emits finds nothing held. -/
theorem portDeliversTheOutcomeSequence : Obligations.PortDeliversTheOutcomeSequence :=
  fun _ _ hinv hs hr ht => (stepMove_of_step hinv ht).delivered hs hr

/-- Settles O40: within the ranges of R27 every event has a step, and a hand-over finds no reserved status. -/
theorem goodStatesNeverStop : Obligations.GoodStatesNeverStop := fun _ hs =>
  have ⟨t, ht, _⟩ := step_moves hs
  ⟨t, ht⟩

/-- Settles O41, from the ten cases of an event step. -/
theorem eventStepIsTotal : Obligations.EventStepIsTotal := by
  intro s e hs
  refine ⟨fun he => ?_, takeEvent_failed⟩
  obtain ⟨t, ht, hc⟩ := takeEvent_cases hs e
  exact ⟨t, ht, hc.consumed he⟩

/-- Settles O38: at a count of 0 with nothing held, nothing emitted and the nets idle, the invariants hold. -/
theorem afterReset : Obligations.AfterReset := by
  refine ⟨rfl, rfl, rfl, rfl, ?_, ?_, ?_⟩
  · exact (State.inv_iff _).mpr ⟨State.posOk_of_cnt_zero rfl, State.heldOk_of_not_valid rfl, rfl⟩
  · exact (State.delivered_iff _).mpr (by rw [State.held_of_not_valid rfl]; rfl)
  · exact decide_eq_true rfl

end Sys2Proof.Machine
end

section
/-! ## Leftovers: two states that agree on what the read in progress has taken -/

namespace Sys2Proof.Machine

/-- The two states are at the same position of a read and agree on the bytes which that read has taken; nothing is said of `sop0` and
of the bytes of `buf` that the read has not written yet (R30). -/
structure SameRead (s₁ s₂ : State) : Prop where
  phase : s₂.phase = s₁.phase
  cnt : s₂.cnt = s₁.cnt
  sop0 : s₁.phase = .probe → s₁.cnt = 1 → s₂.sop0 = s₁.sop0
  buf : s₁.phase = .payload → ∀ (j : Nat) (hj : j < 22), j < s₁.cnt.toNat → s₂.buf[j] = s₁.buf[j]

/-- The runs from `s₁` to `t₁` and from `s₂` to `t₂` emit the same outcomes. -/
def EmitAlike (s₁ s₂ t₁ t₂ : State) : Prop :=
  ∃ l, t₁.emitted = s₁.emitted ++ l ∧ t₂.emitted = s₂.emitted ++ l

/-- The ends of two runs agree in kind, events left, position and outcomes. -/
inductive SameEnd (s₁ s₂ : State) : RunEnd → RunEnd → Prop where
  | finished {t₁ t₂ : State} (hp : t₂.phase = t₁.phase) (hc : t₂.cnt = t₁.cnt) (hl : EmitAlike s₁ s₂ t₁ t₂) :
      SameEnd s₁ s₂ (.finished t₁) (.finished t₂)
  | stuck {t₁ t₂ : State} (left : List Event) (hp : t₂.phase = t₁.phase) (hc : t₂.cnt = t₁.cnt)
      (hl : EmitAlike s₁ s₂ t₁ t₂) : SameEnd s₁ s₂ (.stuck t₁ left) (.stuck t₂ left)

variable {s₁ s₂ t₁ t₂ u₁ u₂ : State}

/-- At the start of a read it has taken nothing, so the phase is all there is to agree on. -/
theorem SameRead.of_start (hp : s₂.phase = s₁.phase) (h₁ : s₁.cnt = 0) (h₂ : s₂.cnt = 0) : SameRead s₁ s₂ where
  phase := hp
  cnt := h₂.trans h₁.symm
  sop0 _ hc := by simp [h₁] at hc
  buf _ j _ hj := by simp [h₁] at hj

theorem EmitAlike.refl (s₁ s₂ : State) : EmitAlike s₁ s₂ s₁ s₂ :=
  ⟨[], (List.append_nil _).symm, (List.append_nil _).symm⟩

theorem EmitAlike.trans (h : EmitAlike s₁ s₂ t₁ t₂) (h' : EmitAlike t₁ t₂ u₁ u₂) : EmitAlike s₁ s₂ u₁ u₂ := by
  obtain ⟨l, h₁, h₂⟩ := h
  obtain ⟨l', h₁', h₂'⟩ := h'
  exact ⟨l ++ l', by rw [h₁', h₁, List.append_assoc], by rw [h₂', h₂, List.append_assoc]⟩

theorem SameEnd.prepend {a b : RunEnd} (h : EmitAlike s₁ s₂ t₁ t₂) (h' : SameEnd t₁ t₂ a b) : SameEnd s₁ s₂ a b := by
  cases h' with
  | finished hp hc hl => exact .finished hp hc (h.trans hl)
  | stuck left hp hc hl => exact .stuck left hp hc (h.trans hl)

/-- A byte stored at offset `cnt` extends the agreement of the buffers by that offset. -/
theorem SameRead.buf_set (h : SameRead s₁ s₂) (hp : s₁.phase = .payload) (b : Byte) {i : Nat} (hi : i < 22)
    (hc : s₁.cnt.toNat = i) (j : Nat) (hj : j < 22) (hji : j < i + 1) :
    (s₂.buf.set i b)[j] = (s₁.buf.set i b)[j] := by
  rw [Vector.getElem_set, Vector.getElem_set]
  split
  · rfl
  · exact h.buf hp j hj (by omega)

/-- The 22nd byte makes the buffers equal, whatever they held before the read. -/
theorem SameRead.buf_set_last (h : SameRead s₁ s₂) (hp : s₁.phase = .payload) (hc : s₁.cnt = 21) (b : Byte) :
    s₂.buf.set 21 b = s₁.buf.set 21 b :=
  Vector.ext fun j hj => h.buf_set hp b (by omega) (by rw [hc]; rfl) j hj hj

/-- An event has the same effect on two states that agree on the read in progress: the same case applies, the agreement stays, and the
outcomes are the same. -/
theorem EventStep.transfer {e : Event} (h : SameRead s₁ s₂) (ht : EventStep s₁ e t₁) :
    ∃ t₂, EventStep s₂ e t₂ ∧ SameRead t₁ t₂ ∧ EmitAlike s₁ s₂ t₁ t₂ := by
  cases ht with
  | reset => exact ⟨_, .reset, .of_start rfl rfl rfl, .refl s₁ s₂⟩
  | failedHold e hp he => exact ⟨s₂, .failedHold e (h.phase.trans hp) he, h, .refl s₁ s₂⟩
  | xportFail ph hp =>
    exact ⟨_, .xportFail ph (h.phase.trans hp), .of_start rfl rfl rfl, _, rfl, by simp [h.cnt]⟩
  | probeFirst b hp hc =>
    refine ⟨_, .probeFirst b (h.phase.trans hp) (h.cnt.trans hc), ?_, .refl s₁ s₂⟩
    exact ⟨h.phase, rfl, fun _ _ => rfl, fun hpay => by simp [hp] at hpay⟩
  | probeMatch b hp hc hm =>
    exact ⟨_, .probeMatch b (h.phase.trans hp) (h.cnt.trans hc) (h.sop0 hp hc ▸ hm), .of_start rfl rfl rfl, .refl s₁ s₂⟩
  | probeMiss b hp hc hm =>
    exact ⟨_, .probeMiss b (h.phase.trans hp) (h.cnt.trans hc) (h.sop0 hp hc ▸ hm), .of_start h.phase rfl rfl, _, rfl, rfl⟩
  | probeEnd hp => exact ⟨_, .probeEnd (h.phase.trans hp), .of_start rfl rfl rfl, _, rfl, by simp [h.cnt]⟩
  | payloadByte b hp hc =>
    refine ⟨_, .payloadByte b (h.phase.trans hp) (h.cnt.symm ▸ hc), ?_, .refl s₁ s₂⟩
    have hcnt : (s₁.cnt + 1).toNat = s₁.cnt.toNat + 1 := by bv_omega
    refine ⟨h.phase, congrArg (· + 1) h.cnt, fun hpr => by simp [hp] at hpr, fun _ j hj hlt => ?_⟩
    simpa [h.cnt] using h.buf_set hp b (by omega) rfl j hj (hcnt ▸ hlt)
  | payloadLast b hp hc =>
    refine ⟨_, .payloadLast b (h.phase.trans hp) (h.cnt.trans hc), .of_start rfl rfl rfl, _,
      State.completeFrame_emitted _, ?_⟩
    simp [h.buf_set_last hp hc b]
  | payloadEnd hp => exact ⟨_, .payloadEnd (h.phase.trans hp), .of_start rfl rfl rfl, _, rfl, by simp [h.cnt]⟩

/-- Runs of one event program from two states that agree on the read in progress end alike. -/
theorem runEvents_sameEnd (es : List Event) (hs : s₁.posOk = true) (h : SameRead s₁ s₂) :
    SameEnd s₁ s₂ (runEvents s₁ es) (runEvents s₂ es) := by
  induction es generalizing s₁ s₂ with
  | nil => exact .finished h.phase h.cnt (.refl s₁ s₂)
  | cons e es ih =>
    by_cases hf : s₁.phase = .failed ∧ e ≠ .reset
    · obtain ⟨hp, he⟩ := hf
      rw [runEvents_stuck hp he, runEvents_stuck (h.phase.trans hp) he]
      exact .stuck (e :: es) h.phase h.cnt (.refl s₁ s₂)
    · have hgo : s₁.phase ≠ .failed ∨ e = .reset := by rwa [not_and_or, not_not] at hf
      obtain ⟨t₁, ht₁, hc₁⟩ := takeEvent_cases hs e
      obtain ⟨t₂, hc₂, hsame, hl⟩ := hc₁.transfer h
      have ht₂ : takeEvent e s₂ = .next t₂ :=
        takeEvent_of_eventStep ((State.posOk_congr h.phase h.cnt).trans hs) hc₂
      rw [runEvents_cons hgo ht₁, runEvents_cons (h.phase ▸ hgo) ht₂]
      exact (ih (hc₁.posOk hs) hsame).prepend hl

/-- Settles O52: at a count of 0 the states agree on the read in progress, which every event keeps. -/
theorem leftoversAreNeverObserved : Obligations.LeftoversAreNeverObserved := by
  intro es s₁ s₂ h₁ h₂ hp
  have hend := runEvents_sameEnd es (State.posOk_of_cnt_zero h₁) (.of_start hp.symm h₁ h₂)
  constructor
  · intro t₁ ht
    rw [ht] at hend
    generalize runEvents s₂ es = r₂ at hend
    obtain ⟨hph, hc, l, hl₁, hl₂⟩ := hend
    exact ⟨_, l, rfl, hph, hc, hl₁, hl₂⟩
  · intro t₁ left ht
    rw [ht] at hend
    generalize runEvents s₂ es = r₂ at hend
    cases hend with
    | stuck _ hph hc hl =>
      obtain ⟨l, hl₁, hl₂⟩ := hl
      exact ⟨_, l, rfl, hph, hc, hl₁, hl₂⟩

end Sys2Proof.Machine
end

/-! # Proofs: the payload buffer and the bytes of the stream (20_memory.md) -/

section
/-! ## The bytes that events, outcomes and positions account for (R40, R43, R50) -/

namespace Sys2Proof.Machine

@[simp] theorem streamBytes_append (es fs : List Event) : streamBytes (es ++ fs) = streamBytes es + streamBytes fs :=
  List.countP_append

/-- A `Byte` event takes one stream byte. -/
@[simp] theorem streamBytes_byte (b : Byte) : streamBytes [.byte b] = 1 := rfl

/-- Each of the two outcomes of a completed frame stands for the marker and the 22 bytes of the frame. -/
@[simp] theorem Report.bytes_frameReport (f : Frame) : (frameReport f).bytes = 24 := by
  rw [frameReport]; split <;> rfl

theorem State.attemptBytes_probe {s : State} (hp : s.phase = .probe) : s.attemptBytes = s.cnt.toNat := by
  rw [State.attemptBytes, hp]

theorem State.attemptBytes_payload {s : State} (hp : s.phase = .payload) : s.attemptBytes = 2 + s.cnt.toNat := by
  rw [State.attemptBytes, hp]

theorem State.tiled_iff (s : State) :
    s.tiled = true ↔ streamBytes s.consumed = (s.emitted.map Report.bytes).sum + s.attemptBytes :=
  decide_eq_true_iff

/-- No edge presents `Reset` as a beat; only `rst` brings it (R86). -/
theorem EdgeIn.event_ne_reset (g : EdgeIn) : g.event ≠ .reset := by
  rw [EdgeIn.event]; split_ifs <;> simp

end Sys2Proof.Machine
end

section
/-! ## The attempts tile the stream -/

namespace Sys2Proof.Machine

variable {s t : State} {e : Event}

/-- An event other than `Reset` moves bytes and loses none: what the attempt in progress held, with the byte taken, is what the
outcome reported counts, if there is one, with what the attempt in progress then holds (R50). -/
theorem EventStep.bytes_balance (h : EventStep s e t) (he : e ≠ .reset) :
    ∃ rs es, t.emitted = s.emitted ++ rs ∧ t.consumed = s.consumed ++ es ∧
      s.attemptBytes + streamBytes es = (rs.map Report.bytes).sum + t.attemptBytes := by
  cases h with
  | reset => exact absurd rfl he
  | failedHold => exact ⟨[], [], by simp, by simp, Nat.add_comm _ _⟩
  | xportFail ph hp =>
    refine ⟨[.transportFailure ph s.cnt], [.fail], rfl, rfl, ?_⟩
    cases ph with
    | probe => rw [State.attemptBytes_probe hp]; rfl
    | payload => rw [State.attemptBytes_payload hp]; rfl
  | probeFirst b hp hc =>
    refine ⟨[], [.byte b], by simp, rfl, ?_⟩
    rw [State.attemptBytes_probe hp, State.attemptBytes_probe (by exact hp), hc]; rfl
  | probeMatch b hp hc =>
    refine ⟨[], [.byte b], by simp, rfl, ?_⟩
    rw [State.attemptBytes_probe hp, State.attemptBytes_payload rfl, hc]; rfl
  | probeMiss b hp hc =>
    refine ⟨[.noSop], [.byte b], rfl, rfl, ?_⟩
    rw [State.attemptBytes_probe hp, State.attemptBytes_probe (by exact hp), hc]; rfl
  | probeEnd hp =>
    refine ⟨[.shortRead .probe s.cnt], [.endRead], rfl, rfl, ?_⟩
    rw [State.attemptBytes_probe hp]; rfl
  | payloadByte b hp hc =>
    refine ⟨[], [.byte b], by simp, rfl, ?_⟩
    have hcnt : (s.cnt + 1).toNat = s.cnt.toNat + 1 := by bv_omega
    rw [State.attemptBytes_payload hp, State.attemptBytes_payload (by exact hp), State.record_cnt, hcnt, streamBytes_byte,
      List.map_nil, List.sum_nil]
    omega
  | payloadLast b hp hc =>
    refine ⟨[frameReport (s.writeBuf 21 b).buf], [.byte b], State.completeFrame_emitted _, by simp, ?_⟩
    rw [State.attemptBytes_payload hp, State.attemptBytes_probe rfl, hc, List.map_singleton, Report.bytes_frameReport]; rfl
  | payloadEnd hp =>
    refine ⟨[.shortRead .payload s.cnt], [.endRead], rfl, rfl, ?_⟩
    rw [State.attemptBytes_payload hp]; rfl

theorem EventStep.tiled (h : EventStep s e t) (he : e ≠ .reset) (hs : s.tiled = true) : t.tiled = true := by
  obtain ⟨rs, es, hem, hco, hbal⟩ := h.bytes_balance he
  rw [State.tiled_iff] at hs ⊢
  rw [hem, hco, streamBytes_append, List.map_append, List.sum_append]
  omega

/-- Of the four things a step can do, only an event moves bytes, and without `rst` the event is not `Reset`. -/
theorem StepMove.tiled (h : StepMove s t) (hr : s.nextIsReset = false) (hs : s.tiled = true) : t.tiled = true := by
  cases h with
  | noEdge | hold | handOver => exact hs
  | event g rest e _ hedge hd ht =>
    obtain ⟨hrst, -⟩ | ⟨-, -, -, rfl⟩ := hd
    · simp [State.nextIsReset, hedge, hrst] at hr
    · exact ht.tiled g.event_ne_reset hs

/-- Settles O43: the one thing that moves bytes is an event, and each event step other than `Reset` balances them. -/
theorem attemptsTileTheStream : Obligations.AttemptsTileTheStream :=
  fun _ _ hinv hs hr ht => (stepMove_of_step hinv ht).tiled hr hs

end Sys2Proof.Machine
end

section
/-! ## Beyond the buffer (R39, R91) -/

namespace Sys2Proof.Machine

variable {s : State} {i : Cnt}

/-- A write at an offset that the buffer lacks stops (log entry 18). -/
theorem exec_payloadByte_beyond (b : Byte) (hi : 22 ≤ i.toNat) :
    exec (.payloadByte i b) s = .fault .noSuchBufferByte :=
  dif_neg (Nat.not_lt.mpr hi)

/-- A payload byte at a count of 22 or more: the row is `PAYLOAD_BYTE`, whose operand range leaves the count out (R91). -/
theorem decodeSel_payload_byte_beyond (b : Byte) (hp : s.phase = .payload) (hc : 22 ≤ s.cnt.toNat) :
    decodeSel (s.selector (.byte b)) = .error .cntNeverHeld := by
  have hne : s.cnt ≠ 21#5 := fun h => by simp [h] at hc
  have hwf : (Instr.payloadByte s.cnt b).wellFormed = false :=
    (wellFormed_payloadByte _ _).trans (decide_eq_false (by omega))
  have hsel : selectOp (s.selector (.byte b)) = .ok (.payloadByte s.cnt b) := by
    simp [selectOp, State.selector, Phase.code, Event.kind, Event.data, hp, hne]
  have hph : (s.selector (.byte b)).phase ≠ 0b11 := by simp [State.selector, Phase.code, hp]
  simp only [decodeSel, if_neg hph, hsel, hwf, Bool.false_eq_true, if_false]

/-- Settles O5: the buffer ends at offset 21, and so does the range of counts that select `PAYLOAD_BYTE`. -/
theorem payloadByteBeyondTheBufferStops : Obligations.PayloadByteBeyondTheBufferStops := by
  intro s i b hi
  refine ⟨exec_payloadByte_beyond b hi, fun hp hc => ?_⟩
  subst hc
  rw [decode_sel_word, decodeSel_payload_byte_beyond b hp hi]

end Sys2Proof.Machine
end

/-! # Proofs: the selector, the opcode table, the frame's two forms and the ports (30_encoding.md) -/

section
/-! ## The selection as the rows of R73, each with its own conditions -/

namespace Sys2Proof

/-- The four codes of a `kind` or `phase` field (R72). -/
theorem two_bit_cases (k : BitVec 2) : k = 0b00 ∨ k = 0b01 ∨ k = 0b10 ∨ k = 0b11 := by revert k; decide

/-- The event with the fields of an event is that event. -/
@[simp] theorem Event.ofFields_kind_data (e : Event) : Event.ofFields e.kind e.data = e := by
  cases e <;> rfl

/-- The event that a `kind` and a `data` field show is of that kind. -/
@[simp] theorem Event.kind_ofFields (k : BitVec 2) (d : Byte) : (Event.ofFields k d).kind = k := by
  obtain rfl | rfl | rfl | rfl := two_bit_cases k <;> rfl

theorem Event.ofFields_ne_reset {k : BitVec 2} (hk : k ≠ 0b11) (d : Byte) : Event.ofFields k d ≠ .reset :=
  fun h => hk (by rw [← Event.kind_ofFields k d, h]; rfl)

theorem ReadPhase.code_inj {a b : ReadPhase} (h : a.code = b.code) : a = b := by
  revert h; cases a <;> cases b <;> simp [ReadPhase.code]

theorem ReadPhase.code_ne_failed (ph : ReadPhase) : ph.code ≠ 0b10 := by cases ph <;> decide

theorem ReadPhase.code_ne_eleven (ph : ReadPhase) : ph.code ≠ 0b11 := by cases ph <;> decide

/-- A phase that is held is `FAILED` or has a read in progress (R89). -/
theorem phase_cases {p : BitVec 2} (hp : p ≠ 0b11) : p = 0b10 ∨ ∃ ph : ReadPhase, p = ph.code := by
  obtain rfl | rfl | rfl | rfl := two_bit_cases p
  · exact .inr ⟨.probe, rfl⟩
  · exact .inr ⟨.payload, rfl⟩
  · exact .inl rfl
  · exact absurd rfl hp

/-- The selection of R73 for a phase that is held: one constructor per row, with all the conditions under which that row is the
first to match. -/
inductive Selects (x : Sel) : Instr → Prop where
  | reset (hk : x.kind = 0b11) : Selects x .reset
  | failedHold (hp : x.phase = 0b10) (hk : x.kind ≠ 0b11) : Selects x (.failedHold (Event.ofFields x.kind x.data))
  | xportFail (ph : ReadPhase) (hp : x.phase = ph.code) (hk : x.kind = 0b10) : Selects x (.xportFail ph x.cnt)
  | probeMatch (hp : x.phase = 0b00) (hk : x.kind = 0b00) (hc : x.cnt = 1)
      (hd : x.sop0 = Config.sop0 ∧ x.data = Config.sop1) : Selects x .probeMatch
  | probeMiss (hp : x.phase = 0b00) (hk : x.kind = 0b00) (hc : x.cnt = 1)
      (hd : ¬ (x.sop0 = Config.sop0 ∧ x.data = Config.sop1)) : Selects x (.probeMiss x.sop0 x.data)
  | probeFirst (hp : x.phase = 0b00) (hk : x.kind = 0b00) (hc : x.cnt = 0) : Selects x (.probeFirst x.data)
  | probeEnd (hp : x.phase = 0b00) (hk : x.kind = 0b01) : Selects x (.probeEnd x.cnt)
  | payloadLast (hp : x.phase = 0b01) (hk : x.kind = 0b00) (hc : x.cnt = 21) : Selects x (.payloadLast x.data)
  | payloadByte (hp : x.phase = 0b01) (hk : x.kind = 0b00) (hc : x.cnt ≠ 21) : Selects x (.payloadByte x.cnt x.data)
  | payloadEnd (hp : x.phase = 0b01) (hk : x.kind = 0b01) : Selects x (.payloadEnd x.cnt)

variable {x : Sel} {i : Instr}

/-- A row whose conditions hold is what the selection answers. -/
theorem Selects.selectOp_eq (h : Selects x i) : selectOp x = .ok i := by
  cases h with
  | reset hk => simp [selectOp, hk]
  | failedHold hp hk => rw [selectOp, if_neg hk, if_pos hp]
  | xportFail ph hp hk => cases ph <;> simp [selectOp, hp, hk, ReadPhase.code, ReadPhase.ofCode]
  | probeMatch hp hk hc hd => simp [selectOp, hp, hk, hc, hd]
  | probeMiss hp hk hc hd => simp [selectOp, hp, hk, hc, if_neg hd]
  | probeFirst hp hk hc => simp [selectOp, hp, hk, hc]
  | probeEnd hp hk => simp [selectOp, hp, hk]
  | payloadLast hp hk hc => simp [selectOp, hp, hk, hc]
  | payloadByte hp hk hc => simp [selectOp, hp, hk, show x.cnt ≠ 21#5 from hc]
  | payloadEnd hp hk => simp [selectOp, hp, hk]

/-- In a phase that is held some row's conditions hold, but for a byte of the probe at a count of 2 or more. -/
theorem selects_or_count (hp : x.phase ≠ 0b11) :
    (∃ i, Selects x i) ∨ x.phase = 0b00 ∧ x.kind = 0b00 ∧ 2 ≤ x.cnt.toNat := by
  by_cases hr : x.kind = 0b11
  · exact .inl ⟨_, .reset hr⟩
  obtain hf | ⟨ph, hph⟩ := phase_cases hp
  · exact .inl ⟨_, .failedHold hf hr⟩
  obtain hk | hk | hk | hk := two_bit_cases x.kind
  · cases ph with
    | payload =>
      by_cases hc : x.cnt = 21
      · exact .inl ⟨_, .payloadLast hph hk hc⟩
      · exact .inl ⟨_, .payloadByte hph hk hc⟩
    | probe =>
      by_cases h0 : x.cnt = 0
      · exact .inl ⟨_, .probeFirst hph hk h0⟩
      by_cases h1 : x.cnt = 1
      · by_cases hd : x.sop0 = Config.sop0 ∧ x.data = Config.sop1
        · exact .inl ⟨_, .probeMatch hph hk h1 hd⟩
        · exact .inl ⟨_, .probeMiss hph hk h1 hd⟩
      exact .inr ⟨hph, hk, by bv_omega⟩
  · cases ph with
    | probe => exact .inl ⟨_, .probeEnd hph hk⟩
    | payload => exact .inl ⟨_, .payloadEnd hph hk⟩
  · exact .inl ⟨_, .xportFail ph hph hk⟩
  · exact absurd hk hr

/-- The decoder answers the row that is selected if its operands are in the ranges of R91. -/
theorem Selects.decodeSel_eq (hp : x.phase ≠ 0b11) (h : Selects x i) :
    decodeSel x = if i.wellFormed then .ok i else .error .cntNeverHeld := by
  rw [decodeSel, if_neg hp, h.selectOp_eq]

/-- In a phase that is held the decoder either answers an operation or refuses the word for its count (R91; log entry 12). -/
theorem decodeSel_cases (hp : x.phase ≠ 0b11) :
    (∃ i, Selects x i ∧ i.wellFormed = true ∧ decodeSel x = .ok i) ∨ decodeSel x = .error .cntNeverHeld := by
  obtain ⟨i, hi⟩ | ⟨hph, hk, hc⟩ := selects_or_count hp
  · rw [hi.decodeSel_eq hp]
    cases hw : i.wellFormed with
    | true => exact .inl ⟨i, hi, hw, rfl⟩
    | false => exact .inr rfl
  · have h0 : x.cnt ≠ 0#5 := by bv_omega
    have h1 : x.cnt ≠ 1#5 := by bv_omega
    exact .inr (by simp [decodeSel, selectOp, hph, hk, h0, h1])

/-- The decoder answers an operation exactly when the phase is held, the operation's row is selected, and its operands are in the
ranges of R91. -/
theorem decodeSel_ok_iff : decodeSel x = .ok i ↔ x.phase ≠ 0b11 ∧ Selects x i ∧ i.wellFormed = true := by
  constructor
  · intro h
    have hp : x.phase ≠ 0b11 := fun hp => by rw [decodeSel, if_pos hp] at h; cases h
    obtain ⟨j, hj, hw, hd⟩ | hd := decodeSel_cases hp
    · obtain rfl : j = i := by simpa [hd] using h
      exact ⟨hp, hj, hw⟩
    · rw [hd] at h; cases h
  · rintro ⟨hp, hi, hw⟩
    rw [hi.decodeSel_eq hp, if_pos hw]

/-- During a read and for another kind than `Reset`, a row that is selected has its operands in the ranges of R91 at the counts that
the read reaches, and only there. -/
theorem Selects.wellFormed_iff {ph : ReadPhase} (h : Selects x i) (hph : x.phase = ph.code) (hk : x.kind ≠ 0b11) :
    i.wellFormed = true ↔ x.cnt.toNat < ph.len := by
  cases h with
  | reset hk' => exact absurd hk' hk
  | failedHold hp => exact absurd (hph.symm.trans hp) ph.code_ne_failed
  | xportFail ph' hp =>
    obtain rfl := ReadPhase.code_inj (hph.symm.trans hp)
    simp
  | probeMatch hp _ hc | probeFirst hp _ hc =>
    obtain rfl := ReadPhase.code_inj (b := .probe) (hph.symm.trans hp)
    simp [hc]
  | probeMiss hp _ hc hd =>
    obtain rfl := ReadPhase.code_inj (b := .probe) (hph.symm.trans hp)
    simpa [hc] using not_and_or.mp hd
  | probeEnd hp =>
    obtain rfl := ReadPhase.code_inj (b := .probe) (hph.symm.trans hp)
    simp
  | payloadLast hp _ hc =>
    obtain rfl := ReadPhase.code_inj (b := .payload) (hph.symm.trans hp)
    simp [hc]
  | payloadByte hp _ hc =>
    obtain rfl := ReadPhase.code_inj (b := .payload) (hph.symm.trans hp)
    have hne : x.cnt.toNat ≠ 21 := fun h => hc (BitVec.eq_of_toNat_eq h)
    simp only [wellFormed_payloadByte, decide_eq_true_eq, ReadPhase.len_payload]
    omega
  | payloadEnd hp =>
    obtain rfl := ReadPhase.code_inj (b := .payload) (hph.symm.trans hp)
    simp

end Sys2Proof
end

section
/-! ## Decode of encode -/

namespace Sys2Proof

variable {i : Instr} {x : Sel}

/-- The encoder writes a phase that is held. -/
theorem sel?_phase (hx : i.sel? = some x) : x.phase ≠ 0b11 := by
  cases i with
  | xportFail ph k => cases hx; exact ph.code_ne_eleven
  | frameComplete | validate | decodeQuat | decodeGyro | decodeAccel | normalize v => cases hx
  | reset | failedHold e | probeMatch | probeMiss b0 b1 | probeFirst b | probeEnd k | payloadLast b | payloadByte n b
  | payloadEnd k => cases hx; simp

/-- The selector that the encoder writes for a well-formed operation selects it. -/
theorem selects_of_sel? (hw : i.wellFormed = true) (hx : i.sel? = some x) : Selects x i := by
  cases i with
  | reset => cases hx; exact .reset rfl
  | failedHold e =>
    cases hx
    have hk : e.kind ≠ 0b11 := by cases e <;> simp_all [Event.kind]
    simpa using Selects.failedHold (x := ⟨0b10, 0, e.kind, 0, e.data⟩) rfl hk
  | xportFail ph k => cases hx; exact .xportFail ph rfl rfl
  | probeMatch => cases hx; exact .probeMatch rfl rfl rfl ⟨rfl, rfl⟩
  | probeMiss b0 b1 =>
    cases hx
    have hd : ¬ (b0 = Config.sop0 ∧ b1 = Config.sop1) := not_and_or.mpr (by simpa using hw)
    exact .probeMiss rfl rfl rfl hd
  | probeFirst b => cases hx; exact .probeFirst rfl rfl rfl
  | probeEnd k => cases hx; exact .probeEnd rfl rfl
  | payloadLast b => cases hx; exact .payloadLast rfl rfl rfl
  | payloadByte n b =>
    cases hx
    have hn : n ≠ 21 := fun h => by simp [h] at hw
    exact .payloadByte rfl rfl hn
  | payloadEnd k => cases hx; exact .payloadEnd rfl rfl
  | frameComplete | validate | decodeQuat | decodeGyro | decodeAccel | normalize v => cases hx

/-- Decoding the word that the encoder writes for a well-formed operation. -/
theorem decode_encode {c : Code} (hw : i.wellFormed = true) (hc : encode i = some c) : decode c = .ok i := by
  unfold encode at hc
  split at hc
  · next x hx =>
    cases hc
    rw [decode_sel_word]
    exact decodeSel_ok_iff.mpr ⟨sel?_phase hx, selects_of_sel? hw hx, hw⟩
  · split at hc
    · next hi => cases hc; rw [hi]; rfl
    · cases hc

/-- The operations that have no word of their own (log entry 14). -/
theorem encode_eq_none_iff (i : Instr) :
    encode i = none ↔ i.op ∈ [Op.validate, Op.decodeQuat, Op.decodeGyro, Op.decodeAccel, Op.normalize] := by
  cases i <;> simp [encode, Instr.sel?, Instr.op]

/-- Settles O35: the word written for a well-formed operation selects its row, and the decoder answers a selected row whose operands
are in range. -/
theorem decodeEncodeAgree : Obligations.DecodeEncodeAgree :=
  fun i => ⟨fun hw _ hc => decode_encode hw hc, encode_eq_none_iff i⟩

end Sys2Proof
end

section
/-! ## The rows of the opcode table, read field by field -/

namespace Sys2Proof

/-- The word of the fields of a word is the word. -/
@[simp] theorem Sel.word_ofWord (w : BitVec 25) : (Sel.ofWord w).word = w := by
  simp only [Sel.word, Sel.ofWord]
  rw [BitVec.extractLsb'_append_extractLsb'_eq_extractLsb' (show 23 = 18 + 5 from rfl),
    BitVec.extractLsb'_append_extractLsb'_eq_extractLsb' (show 18 = 16 + 2 from rfl),
    BitVec.extractLsb'_append_extractLsb'_eq_extractLsb' (show 16 = 8 + 8 from rfl),
    BitVec.extractLsb'_append_extractLsb'_eq_extractLsb' (show 8 = 0 + 8 from rfl)]
  exact BitVec.extractLsb'_eq_self

/-- A selector whose bits outside a mask are cleared. -/
def Sel.masked (x m : Sel) : Sel where
  phase := x.phase &&& m.phase
  cnt := x.cnt &&& m.cnt
  kind := x.kind &&& m.kind
  sop0 := x.sop0 &&& m.sop0
  data := x.data &&& m.data

/-- A mask acts on each field by itself. -/
theorem Sel.word_masked (x m : Sel) : (x.masked m).word = x.word &&& m.word := by
  simp only [Sel.word, Sel.masked, ← BitVec.and_append]

/-- A row on the selector accepts a word exactly when each field, under the row's mask, is as the row's pattern has it (R72). -/
theorem Row.accepts_sel_iff (o : Op) {p m : Nat} (hp : p < 2 ^ 25) (hm : m < 2 ^ 25) (x : Sel) :
    (Row.mk o true p m).accepts (.sel x.word) = true ↔
      x.masked (Sel.ofWord (BitVec.ofNat 25 m)) = Sel.ofWord (BitVec.ofNat 25 p) := by
  have hw : (Row.mk o true p m).accepts (.sel x.word) = true ↔
      (x.masked (Sel.ofWord (BitVec.ofNat 25 m))).word = BitVec.ofNat 25 p := by
    rw [Sel.word_masked, Sel.word_ofWord, ← BitVec.toNat_inj, BitVec.toNat_and, BitVec.toNat_ofNat, BitVec.toNat_ofNat,
      Nat.mod_eq_of_lt hp, Nat.mod_eq_of_lt hm]
    simp [Row.accepts]
  rw [hw]
  exact ⟨fun h => by rw [← h, Sel.ofWord_word], fun h => by rw [h, Sel.word_ofWord]⟩

/-- The row that applies stands first among those that match (R72). -/
theorem map_op_find?_cons (r : Row) (rs : List Row) (c : Code) :
    ((r :: rs).find? (·.accepts c)).map Row.op =
      if r.accepts c = true then some r.op else (rs.find? (·.accepts c)).map Row.op := by
  rw [List.find?_cons]
  cases r.accepts c <;> rfl

theorem rowOf_eq_map (c : Code) : rowOf c = (opcodeRows.find? (·.accepts c)).map Row.op := by
  unfold rowOf
  cases opcodeRows.find? (·.accepts c) <;> rfl

/-- A mask of ones leaves a field as it stands. -/
theorem and_of_eq_allOnes {n : Nat} {k m : BitVec n} (hm : m = BitVec.allOnes n) : k &&& m = k := by
  rw [hm, BitVec.and_allOnes]

/-- No row of format `F` matches a selector. -/
theorem Row.accepts_sel_of_frame (o : Op) (p m : Nat) (w : BitVec 25) : (Row.mk o false p m).accepts (.sel w) = false := rfl

/-- The opcode table as conditions on the fields of a selector, in priority order. -/
theorem rowOf_sel (x : Sel) : rowOf (.sel x.word) =
    if x.kind = 0b11 then some .reset
    else if x.phase = 0b10 then some .failedHold
    else if x.phase &&& 0b10 = 0 ∧ x.kind = 0b10 then some .xportFail
    else if x.phase = 0b00 ∧ x.cnt = 1 ∧ x.kind = 0b00 ∧ x.sop0 = 0x55 ∧ x.data = 0x55 then some .probeMatch
    else if x.phase = 0b00 ∧ x.cnt = 1 ∧ x.kind = 0b00 then some .probeMiss
    else if x.phase = 0b00 ∧ x.cnt = 0 ∧ x.kind = 0b00 then some .probeFirst
    else if x.phase = 0b00 ∧ x.kind = 0b01 then some .probeEnd
    else if x.phase = 0b01 ∧ x.cnt = 21 ∧ x.kind = 0b00 then some .payloadLast
    else if x.phase = 0b01 ∧ x.kind = 0b00 then some .payloadByte
    else if x.phase = 0b01 ∧ x.kind = 0b01 then some .payloadEnd
    else none := by
  simp [rowOf_eq_map, opcodeRows, map_op_find?_cons, Row.accepts_sel_iff, Row.accepts_sel_of_frame, Sel.masked, Sel.ofWord,
    and_of_eq_allOnes]

/-- A row whose conditions for the selection hold is the row of the lowest priority number that matches. -/
theorem Selects.rowOf_eq {x : Sel} {i : Instr} (h : Selects x i) : rowOf (.sel x.word) = some i.op := by
  rw [rowOf_sel]
  cases h with
  | reset hk => rw [if_pos hk]; rfl
  | failedHold hp hk => rw [if_neg hk, if_pos hp]; rfl
  | xportFail ph hp hk => cases ph <;> simp [hp, hk, ReadPhase.code, Instr.op]
  | probeMatch hp hk hc hd =>
    obtain ⟨h0, h1⟩ := hd
    simp [hp, hk, hc, h0, h1, Config.sop0, Config.sop1, Instr.op]
  | probeMiss hp hk hc hd =>
    have hd' : ¬ (x.sop0 = 0x55#8 ∧ x.data = 0x55#8) := hd
    simp [hp, hk, hc, if_neg hd', Instr.op]
  | probeFirst hp hk hc => simp [hp, hk, hc, Instr.op]
  | probeEnd hp hk => simp [hp, hk, Instr.op]
  | payloadLast hp hk hc => simp [hp, hk, hc, Instr.op]
  | payloadByte hp hk hc => simp [hp, hk, show x.cnt ≠ 21#5 from hc, Instr.op]
  | payloadEnd hp hk => simp [hp, hk, Instr.op]

/-- Every frame matches all the rows of format `F`, of which `FRAME_COMPLETE`'s comes first (R73; log entry 14). -/
theorem rowOf_frame (f : BitVec 176) : rowOf (.frame f) = some .frameComplete := by
  simp [rowOf_eq_map, opcodeRows, Row.accepts]

end Sys2Proof
end

section
/-! ## The decoder against the table -/

namespace Sys2Proof

variable {x : Sel}

/-- `RESET` is decoded in every phase that is held, at any count. -/
theorem decodeSel_of_kind_reset (hp : x.phase ≠ 0b11) (hk : x.kind = 0b11) : decodeSel x = .ok .reset :=
  decodeSel_ok_iff.mpr ⟨hp, .reset hk, rfl⟩

/-- `FAILED_HOLD` is decoded for every other kind in `FAILED`, at any count. -/
theorem decodeSel_of_phase_failed (hp : x.phase = 0b10) (hk : x.kind ≠ 0b11) :
    decodeSel x = .ok (.failedHold (Event.ofFields x.kind x.data)) := by
  refine decodeSel_ok_iff.mpr ⟨by simp [hp], .failedHold hp hk, ?_⟩
  rw [wellFormed_failedHold, decide_eq_true_eq]
  exact Event.ofFields_ne_reset hk x.data

/-- During a read the decoder answers exactly at the counts that the read reaches. -/
theorem decodeSel_ok_iff_count {ph : ReadPhase} (hph : x.phase = ph.code) (hk : x.kind ≠ 0b11) :
    (∃ i, decodeSel x = .ok i) ↔ x.cnt.toNat < ph.len := by
  have hp : x.phase ≠ 0b11 := hph ▸ ph.code_ne_eleven
  constructor
  · rintro ⟨i, hi⟩
    obtain ⟨-, hs, hw⟩ := decodeSel_ok_iff.mp hi
    exact (hs.wellFormed_iff hph hk).mp hw
  · intro hc
    obtain ⟨i, hs⟩ | ⟨hph', -, hc'⟩ := selects_or_count hp
    · exact ⟨i, decodeSel_ok_iff.mpr ⟨hp, hs, (hs.wellFormed_iff hph hk).mpr hc⟩⟩
    · obtain rfl := ReadPhase.code_inj (b := .probe) (hph.symm.trans hph')
      exact absurd hc (Nat.not_lt.mpr hc')

/-- A count that the read never reaches is refused as such (R91; log entry 12). -/
theorem decodeSel_of_count {ph : ReadPhase} (hph : x.phase = ph.code) (hk : x.kind ≠ 0b11) (hc : ph.len ≤ x.cnt.toNat) :
    decodeSel x = .error .cntNeverHeld := by
  have hp : x.phase ≠ 0b11 := hph ▸ ph.code_ne_eleven
  obtain ⟨i, -, -, hi⟩ | he := decodeSel_cases hp
  · exact absurd ((decodeSel_ok_iff_count hph hk).mp ⟨i, hi⟩) (Nat.not_lt.mpr hc)
  · exact he

/-- Every selector within the phases and counts of R91 decodes. -/
theorem decodeSel_ok_of_ranges (hp : x.phase ≠ 0b11) (h0 : x.phase = 0b00 → x.cnt.toNat ≤ 1)
    (h1 : x.phase = 0b01 → x.cnt.toNat ≤ 21) : ∃ i, decodeSel x = .ok i := by
  by_cases hk : x.kind = 0b11
  · exact ⟨_, decodeSel_of_kind_reset hp hk⟩
  obtain hf | ⟨ph, hph⟩ := phase_cases hp
  · exact ⟨_, decodeSel_of_phase_failed hf hk⟩
  refine (decodeSel_ok_iff_count hph hk).mpr ?_
  cases ph with
  | probe => exact Nat.lt_succ_of_le (h0 hph)
  | payload => exact Nat.lt_succ_of_le (h1 hph)

/-- Settles O36: a word that decodes is one whose row is selected, and a selected row is the first that matches; which words decode
is told by the phase and, during a read, by the count. -/
theorem decodeAgreesWithTheOpcodeTable : Obligations.DecodeAgreesWithTheOpcodeTable := by
  refine ⟨fun w i hi => ?_, fun x hp h0 h1 => ?_, fun x hp hk => ?_, fun x hp => ?_, fun x hk hc => ?_,
    fun f => ⟨rowOf_frame f, rfl⟩⟩
  · obtain ⟨-, hs, hw⟩ := decodeSel_ok_iff.mp hi
    exact ⟨by simpa using hs.rowOf_eq, hw⟩
  · rw [decode_sel_word]
    exact decodeSel_ok_of_ranges hp h0 h1
  · rw [decode_sel_word, decodeSel_of_kind_reset hp hk]
  · rw [decode_sel_word, decodeSel, if_pos hp]
  · rw [decode_sel_word]
    obtain ⟨hp, hc⟩ | ⟨hp, hc⟩ := hc
    · exact decodeSel_of_count (ph := .probe) hp hk hc
    · exact decodeSel_of_count (ph := .payload) hp hk hc

end Sys2Proof
end

section
/-! ## Equal fields side by side in one word -/

namespace Sys2Proof.Machine

/-- `g 0 ‖ g 1 ‖ … ‖ g n`: equal fields side by side, the first one highest, as in R64 and (reversed) in R82. -/
def sideBySide {w : Nat} : {n : Nat} → (Fin (n + 1) → BitVec w) → BitVec (w * (n + 1))
  | 0, g => (g 0).cast (Nat.mul_one w).symm
  | _ + 1, g => sideBySide (fun i => g i.castSucc) ++ g (Fin.last _)

/-- Field `i` of `n + 1` fields side by side has `n - i` fields below it. -/
theorem extractLsb'_sideBySide {w n : Nat} (g : Fin (n + 1) → BitVec w) (i : Fin (n + 1)) :
    (sideBySide g).extractLsb' (w * (n - i)) w = g i := by
  induction n with
  | zero =>
    obtain rfl : i = 0 := Fin.fin_one_eq_zero i
    rw [sideBySide]
    simp [BitVec.extractLsb'_cast]
  | succ n ih =>
    rw [sideBySide]
    cases i using Fin.lastCases with
    | last =>
      rw [Fin.val_last, Nat.sub_self, Nat.mul_zero]
      exact BitVec.extractLsb'_append_eq_right
    | cast i =>
      have hstart : w * (n + 1 - i) - w = w * (n - i) := by
        rw [Nat.succ_sub (Nat.le_of_lt_succ i.isLt), Nat.mul_succ, Nat.add_sub_cancel]
      have hw : w ≤ w * (n + 1 - i) := Nat.le_mul_of_pos_right w (by omega)
      refine (BitVec.extractLsb'_append_eq_of_le hw).trans ?_
      rw [hstart]
      exact ih _ i

end Sys2Proof.Machine
end

section
/-! ## The frame's two forms -/

namespace Sys2Proof.Machine

theorem frameBits_eq (f : Frame) : frameBits f = sideBySide fun i : Fin 22 => f[i.val] := rfl

/-- Byte `i` of the frame stands at bits `[175-8i : 168-8i]` (R64). -/
theorem extractLsb'_frameBits (f : Frame) (i : Fin 22) : (frameBits f).extractLsb' (168 - 8 * i.val) 8 = f[i.val] := by
  have hstart : 168 - 8 * i.val = 8 * (21 - i.val) := by omega
  rw [hstart, frameBits_eq]
  exact extractLsb'_sideBySide (fun i : Fin 22 => f[i.val]) i

theorem getElem_frameOfBits (w : BitVec 176) (i : Nat) (hi : i < 22) :
    (frameOfBits w)[i] = w.extractLsb' (168 - 8 * i) 8 := by
  rw [frameOfBits, Vector.getElem_ofFn]

/-- The bytes read back from the 176-bit value are the frame. -/
@[simp] theorem frameOfBits_frameBits (f : Frame) : frameOfBits (frameBits f) = f :=
  Vector.ext fun i hi => by
    rw [getElem_frameOfBits]
    exact extractLsb'_frameBits f ⟨i, hi⟩

/-- A big-endian field is 16 bits of the value in a row (R64, R65). -/
theorem be16_frameOfBits (w : BitVec 176) (i : Fin 21) : be16 (frameOfBits w) i = w.extractLsb' (160 - 8 * i.val) 16 := by
  rw [be16, getElem_frameOfBits, getElem_frameOfBits]
  have hlow : 168 - 8 * (i.val + 1) = 160 - 8 * i.val := by omega
  rw [hlow]
  exact BitVec.extractLsb'_append_extractLsb'_eq_extractLsb' (by omega)

/-- A little-endian field is the two bytes of the value in the other order (R64, R66). -/
theorem le16_frameOfBits (w : BitVec 176) (i : Fin 21) :
    le16 (frameOfBits w) i = w.extractLsb' (160 - 8 * i.val) 8 ++ w.extractLsb' (168 - 8 * i.val) 8 := by
  rw [le16, getElem_frameOfBits, getElem_frameOfBits]
  have hlow : 168 - 8 * (i.val + 1) = 160 - 8 * i.val := by omega
  rw [hlow]

/-- The fields at the bits of R64 are the fields of the bytes of the value. -/
theorem fieldsOfBits_eq (w : BitVec 176) : fieldsOfBits w = fieldsOf (frameOfBits w) := by
  simp only [fieldsOf, be16_frameOfBits, le16_frameOfBits]
  rfl

/-- Settles O24, from the bytes of the 176-bit value. -/
theorem bitFormAgreesWithByteForm : Obligations.BitFormAgreesWithByteForm := fun f =>
  ⟨extractLsb'_frameBits f, by rw [fieldsOfBits_eq, frameOfBits_frameBits], frameOfBits_frameBits f⟩

end Sys2Proof.Machine
end

section
/-! ## The outcome at the port -/

namespace Sys2Proof.Machine

theorem OutReg.samplePort_eq (o : OutReg) : o.samplePort = sideBySide fun i : Fin 10 => o.sample[i.rev.val] := rfl

/-- Settles O26: the ten words stand side by side in the port, the last one highest. -/
theorem sampleWordsStandInOrderAtThePort : Obligations.SampleWordsStandInOrderAtThePort := by
  refine fun w n => ⟨fun j => ?_, rfl⟩
  have hj := extractLsb'_sideBySide (fun i : Fin 10 => w.words.get i.rev) j.rev
  have hstart : 32 * (9 - j.rev.val) = 32 * j.val := by rw [Fin.val_rev]; omega
  rw [hstart, Fin.rev_rev] at hj
  rw [OutReg.samplePort_eq]
  exact hj

/-- The `out_phase` bit is set exactly for the payload read (R83). -/
theorem bitOfRead_eq_ite (ph : ReadPhase) : bitOfRead ph = if ph = .probe then 0 else 1 := by
  cases ph <;> rfl

/-- Settles O25, outcome by outcome; that the outcome reads back is said of the output register once. -/
theorem outcomeEncodingReadsBack : Obligations.OutcomeEncodingReadsBack := by
  refine fun r n => ⟨OutReg.report?_hold r n, ?_⟩
  cases r with
  | noSop | sample | checksumMismatch => exact ⟨by simp [Report.status], rfl, rfl, rfl⟩
  | shortRead ph | transportFailure ph => exact ⟨by simp [Report.status], rfl, bitOfRead_eq_ite ph, rfl⟩

/-- Settles O27: within the ranges of R27 neither subtraction wraps. -/
theorem remainingCountsTheRead : Obligations.RemainingCountsTheRead := by
  refine fun s hs => ⟨fun hp => ?_, fun hp => ?_, fun hp => ?_⟩
  · have hr : s.rxRemaining = 2 - s.cnt := by rw [State.rxRemaining, hp]
    have hc : s.cnt.toNat < 2 := by simpa [State.posOk, hp] using hs
    rw [hr]; bv_omega
  · have hr : s.rxRemaining = 22 - s.cnt := by rw [State.rxRemaining, hp]
    have hc := s.posOk_payload hs hp
    rw [hr]; bv_omega
  · rw [State.rxRemaining, hp]

end Sys2Proof.Machine
end

section
/-! ## What an edge does -/

namespace Sys2Proof.Machine

variable {s : State} {e : Event} {g : EdgeIn}

/-- A consumer that finds a status above the five codes of R81 reads no outcome (R84). -/
theorem OutReg.report?_of_reserved {o : OutReg} (h : 5 ≤ o.status.toNat) : o.report? = none := by
  have hne : ∀ c : BitVec 3, c.toNat < 5 → o.status ≠ c := fun c hc he => by rw [he] at h; omega
  rw [OutReg.report?, if_neg (hne _ (by decide)), if_neg (hne _ (by decide)), if_neg (hne _ (by decide)),
    if_neg (hne _ (by decide)), if_neg (hne _ (by decide))]

/-- A held outcome goes to the consumer at an edge with `out_ready` (R88). -/
theorem edgeStep_of_ready (hr : g.rst = false) (hv : s.out.valid = true) (ho : g.outReady = true) :
    edgeStep g s = s.handOver := by
  simp [edgeStep, hr, hv, ho]

/-- A held outcome stays, and blocks the input, at an edge without `out_ready` (R88, R141). -/
theorem edgeStep_of_not_ready (hr : g.rst = false) (hv : s.out.valid = true) (ho : g.outReady = false) :
    edgeStep g s = .next s := by
  simp [edgeStep, hr, hv, ho]

/-- An edge that delivers an event steps by that event. -/
theorem edgeStep_of_delivers (h : delivers g s e) : edgeStep g s = takeEvent e s := by
  obtain ⟨hr, rfl⟩ | ⟨hr, hv, hx, rfl⟩ := h
  · simp [edgeStep, hr]
  · simp [edgeStep, hr, hv, hx]

/-- Settles O30, from what an edge does while an outcome is held. -/
theorem heldOutcomeWaitsForTheConsumer : Obligations.HeldOutcomeWaitsForTheConsumer := by
  intro s g rest he hr hv
  rw [step_cons he]
  refine ⟨fun ho => edgeStep_of_not_ready hr hv ho, fun ho r hrep => ?_⟩
  rw [edgeStep_of_ready hr (by exact hv) ho]
  exact ⟨_, State.handOver_of_report hrep, rfl, rfl, rfl⟩

/-- Settles O31: the hand-over of a register from which no outcome is read is the fault (log entry 17). -/
theorem reservedStatusIsAFault : Obligations.ReservedStatusIsAFault := by
  intro s g rest he hr hv ho hst
  rw [step_cons he, edgeStep_of_ready hr (by exact hv) ho, State.handOver, OutReg.report?_of_reserved hst]

/-- `FAILED_HOLD` alone holds its event (R101). -/
theorem holdsEvent_iff (i : Instr) : holdsEvent i = true ↔ ∃ e, i = .failedHold e := by
  cases i <;> simp [holdsEvent]

/-- Settles O33: the edge steps by the event it delivers, and the event by the operation its selector decodes to. -/
theorem stepRunsTheSelectedOperation : Obligations.StepRunsTheSelectedOperation := by
  intro s g rest e i he hd hi
  refine ⟨?_, holdsEvent_iff i⟩
  have hd' : delivers g { s with edges := rest } e := hd
  rw [decode_sel_word] at hi
  have hstep : step s = perform i e { s with edges := rest } := by
    rw [step_cons he, edgeStep_of_delivers hd']
    exact takeEvent_of_decode hi
  rw [hstep, perform]
  rfl

/-- Settles O34: each word is closed, and evaluates. -/
theorem writtenWordsDecode : Obligations.WrittenWordsDecode := by
  refine ⟨?_, ?_, ?_, ?_, ?_, ?_, ?_, ?_, ?_, ?_, ?_, ?_⟩ <;> rfl

end Sys2Proof.Machine
end

section
/-! ## The events that edges take -/

namespace Sys2Proof.Machine

variable {s t : State} {e : Event} {g : EdgeIn}

/-! `State.completeFrame` on the fields that it leaves alone -/

@[simp] theorem State.completeFrame_buf (s : State) : s.completeFrame.buf = s.buf := by
  rw [State.completeFrame_eq]; split <;> rfl

@[simp] theorem State.completeFrame_edges (s : State) : s.completeFrame.edges = s.edges := by
  rw [State.completeFrame_eq]; split <;> rfl

/-- An event step does not look at the edges to come. -/
theorem EventStep.edges (h : EventStep s e t) : t.edges = s.edges := by
  cases h with
  | payloadLast => exact State.completeFrame_edges _
  | reset | failedHold | xportFail | probeFirst | probeMatch | probeMiss | probeEnd | payloadByte | payloadEnd => rfl

theorem State.rxReady_iff (s : State) : s.rxReady = true ↔ s.phase ≠ .failed ∧ s.out.valid = false := by
  simp [State.rxReady]

/-- The events that an edge takes (R86): `Reset` at `rst`, the event presented at a beat, else none. -/
def EdgeIn.taken (g : EdgeIn) (s : State) : List Event :=
  if g.rst then [.reset] else if g.rxValid && s.rxReady then [g.event] else []

/-- An edge from a state that meets the invariant goes on, and takes those events. -/
theorem edgeStep_takes (hs : s.inv = true) (g : EdgeIn) :
    ∃ t, edgeStep g s = .next t ∧ t.edges = s.edges ∧ t.consumed = s.consumed ++ g.taken s := by
  obtain ⟨hpos, hheld, -⟩ := s.inv_iff.mp hs
  obtain ⟨hr, hstep⟩ | ⟨hr, hv, -, hstep⟩ | ⟨hr, hv, -, hstep⟩ | ⟨hr, hv, hx, hstep⟩ | ⟨hr, -, hx, hstep⟩ :=
    edgeStep_cases g s
  · exact ⟨_, hstep.trans (takeEvent_reset s), rfl, by simp [EdgeIn.taken, hr]⟩
  · obtain ⟨r, hrep⟩ := State.report_of_heldOk hheld hv
    exact ⟨_, hstep.trans (State.handOver_of_report hrep), rfl, by simp [EdgeIn.taken, State.rxReady, hr, hv]⟩
  · exact ⟨s, hstep, rfl, by simp [EdgeIn.taken, State.rxReady, hr, hv]⟩
  · by_cases hp : s.phase = .failed
    · exact ⟨s, hstep.trans (takeEvent_failed hp g.event_ne_reset), rfl, by simp [EdgeIn.taken, State.rxReady, hr, hp]⟩
    · obtain ⟨t, ht, hc⟩ := takeEvent_cases hpos g.event
      refine ⟨t, hstep.trans ht, hc.edges, ?_⟩
      rw [hc.consumed (.inl hp)]
      simp [EdgeIn.taken, State.rxReady, hr, hv, hx, hp]
  · exact ⟨s, hstep, rfl, by simp [EdgeIn.taken, hr, hx]⟩

/-- Settles O29: `rx_ready` by its definition, and the events taken as `EdgeIn.taken` has them. -/
theorem beatsAreTakenExactlyWhenReady : Obligations.BeatsAreTakenExactlyWhenReady := by
  intro s g rest hs he
  have hs' : State.inv { s with edges := rest } = true := hs
  obtain ⟨t, ht, hedges, hcons⟩ := edgeStep_takes hs' g
  have hready : State.rxReady { s with edges := rest } = s.rxReady := rfl
  rw [EdgeIn.taken, hready] at hcons
  refine ⟨s.rxReady_iff, t, (step_cons he).trans ht, hedges, fun hr => ?_, fun hr hx hrdy => ?_, fun hr hno => ?_⟩
  · simpa [hr] using hcons
  · simpa [hr, hx, hrdy, EdgeIn.event] using hcons
  · have hbeat : (g.rxValid && s.rxReady) = false := Bool.and_eq_false_iff.mpr hno
    simpa [hr, hbeat] using hcons

end Sys2Proof.Machine
end

section
/-! ## The run of a packet -/

namespace Sys2Proof.Machine

variable {s t : State} {e : Event}

/-- A run outside `FAILED` goes on with the step of its first event. -/
theorem runEvents_eventStep (es : List Event) (hs : s.posOk = true) (hp : s.phase ≠ .failed) (h : EventStep s e t) :
    runEvents s (e :: es) = runEvents t es :=
  runEvents_cons (.inl hp) (takeEvent_of_eventStep hs h)

/-- The marker at the start of an attempt starts a payload read (R94). -/
theorem runEvents_marker (es : List Event) (hp : s.phase = .probe) (hc : s.cnt = 0) :
    ∃ t, runEvents s (.byte Config.sop0 :: .byte Config.sop1 :: es) = runEvents t es ∧ t.phase = .payload ∧ t.cnt = 0 ∧
      t.emitted = s.emitted := by
  have h₁ := EventStep.probeFirst Config.sop0 hp hc
  have hpos := State.posOk_of_cnt_zero hc
  have h₂ := EventStep.probeMatch (s := State.record { s with sop0 := Config.sop0, cnt := 1 } (.byte Config.sop0)) Config.sop1
    hp rfl ⟨rfl, rfl⟩
  have hrun := (runEvents_eventStep (.byte Config.sop1 :: es) hpos (by simp [hp]) h₁).trans
    (runEvents_eventStep es (h₁.posOk hpos) (by simp [hp]) h₂)
  exact ⟨_, hrun, rfl, rfl, rfl⟩

/-- A byte that does not complete the payload read is stored at offset `cnt` (R96). -/
theorem eventStep_payload_byte (b : Byte) (hp : s.phase = .payload) (hc : s.cnt.toNat < 21) :
    ∃ t, EventStep s (.byte b) t ∧ t.phase = .payload ∧ t.cnt.toNat = s.cnt.toNat + 1 ∧ t.emitted = s.emitted ∧
      ∀ j : Fin 22, t.readBuf j = if j.val = s.cnt.toNat then b else s.readBuf j := by
  have hcnt : (s.cnt + 1).toNat = s.cnt.toNat + 1 := by bv_omega
  refine ⟨_, .payloadByte b hp hc, hp, hcnt, rfl, fun j => ?_⟩
  exact (s.readBuf_writeBuf ⟨s.cnt.toNat, by omega⟩ j b).trans (if_congr Fin.ext_iff rfl rfl)

/-- Bytes that do not complete the payload read are stored one by one at the offsets from `cnt` on, and nothing is reported (R96,
R102). -/
theorem runEvents_payload_bytes (bs : List Byte) (hp : s.phase = .payload) (hc : s.cnt.toNat + bs.length ≤ 21) :
    ∃ t, runEvents s (listing bs) = .finished t ∧ t.phase = .payload ∧ t.cnt.toNat = s.cnt.toNat + bs.length ∧
      t.emitted = s.emitted ∧
      ∀ j : Fin 22, t.readBuf j =
        if s.cnt.toNat ≤ j.val then (bs[j.val - s.cnt.toNat]?).getD (s.readBuf j) else s.readBuf j := by
  induction bs generalizing s with
  | nil => exact ⟨s, rfl, hp, rfl, rfl, fun j => by simp⟩
  | cons b bs ih =>
    rw [List.length_cons] at hc ⊢
    have hlt : s.cnt.toNat < 21 := by omega
    have hpos : s.posOk = true := by simpa [State.posOk, hp] using Nat.lt_succ_of_lt hlt
    obtain ⟨u, hstep, hpu, hcu, heu, hbu⟩ := eventStep_payload_byte b hp hlt
    obtain ⟨t, hrun, hpt, hct, het, hbt⟩ := ih hpu (by omega)
    refine ⟨t, (runEvents_eventStep _ hpos (by simp [hp]) hstep).trans hrun, hpt, by omega, het.trans heu, fun j => ?_⟩
    rw [hbt j, hbu j, hcu]
    obtain hlow | heq | hhigh := Nat.lt_trichotomy j.val s.cnt.toNat
    · rw [if_neg (by omega), if_neg (by omega), if_neg (by omega)]
    · rw [if_neg (by omega), if_pos heq, if_pos heq.ge, heq, Nat.sub_self]
      rfl
    · have hidx : j.val - s.cnt.toNat = j.val - (s.cnt.toNat + 1) + 1 := by omega
      rw [if_pos (by omega), if_neg (by omega), if_pos (by omega), hidx, List.getElem?_cons_succ]

/-- `PAYLOAD_LAST` performed on its byte: the frame with that byte last is reported, and the attempt ends (R97, R115). -/
theorem perform_payloadLast (s : State) (b : Byte) :
    ∃ t, perform (.payloadLast b) (.byte b) s = .next t ∧ t.phase = .probe ∧ t.cnt = 0 ∧ t.buf = s.buf.set 21 b ∧
      t.emitted = s.emitted ++ [frameReport (s.buf.set 21 b)] :=
  ⟨_, rfl, rfl, rfl, State.completeFrame_buf _, State.completeFrame_emitted _⟩

/-- The 22nd byte of a payload read is taken by `PAYLOAD_LAST`. -/
theorem takeEvent_payload_last (b : Byte) (hp : s.phase = .payload) (hc : s.cnt = 21) :
    takeEvent (.byte b) s = perform (.payloadLast b) (.byte b) s := by
  have hpos : s.posOk = true := by simp [State.posOk, hp, hc]
  have hop : tableOp s (.byte b) = .payloadLast b := by simp [tableOp, hp, hc]
  exact takeEvent_as hpos hop

theorem listing_append (as bs : List Byte) : listing (as ++ bs) = listing as ++ listing bs :=
  List.map_append

/-- The bytes of a frame are the first 21 and the last one. -/
theorem frame_toList_eq (f : Frame) : f.toList = f.toList.take 21 ++ [f[21]] := by
  have htake := List.take_append_getElem (l := f.toList) (i := 21) (by simp)
  rw [List.take_of_length_le (i := 21 + 1) (by simp)] at htake
  exact htake.symm

/-- At the start of a payload read the bytes of a frame are captured whole, whatever the buffer held, and the frame is reported. -/
theorem runEvents_frame (f : Frame) (hp : s.phase = .payload) (hc : s.cnt = 0) :
    ∃ t, runEvents s (listing f.toList) = .finished t ∧ t.phase = .probe ∧ t.cnt = 0 ∧ t.buf = f ∧
      t.emitted = s.emitted ++ [frameReport f] := by
  obtain ⟨u, hrun, hpu, hcu, hemu, hbufu⟩ := runEvents_payload_bytes (f.toList.take 21) hp (by simp [hc])
  have hcu' : u.cnt = 21 := BitVec.eq_of_toNat_eq (by simpa [hc] using hcu)
  obtain ⟨t, hlast, hpt, hct, hbt, hemt⟩ := perform_payloadLast u f[21]
  have hbuf : u.buf.set 21 f[21] = f := by
    refine Vector.ext fun j hj => ?_
    rw [Vector.getElem_set]
    split
    · next h => subst h; rfl
    · next h =>
      have hlt : j < 21 := by omega
      simpa [State.readBuf, hc, hlt] using hbufu ⟨j, hj⟩
  rw [hbuf] at hbt hemt
  refine ⟨t, ?_, hpt, hct, hbt, hemt.trans (by rw [hemu])⟩
  calc runEvents s (listing f.toList)
      = runEvents s (listing (f.toList.take 21) ++ [.byte f[21]]) :=
        congrArg (runEvents s) ((congrArg listing (frame_toList_eq f)).trans (listing_append _ [f[21]]))
    _ = runEvents u [.byte f[21]] := runEvents_append hrun
    _ = .finished t := runEvents_cons (.inl (by simp [hpu])) ((takeEvent_payload_last f[21] hpu hcu').trans hlast)

/-- Settles O49: the marker starts the payload read, which captures and reports the frame. -/
theorem alignedPacketIsDecoded : Obligations.AlignedPacketIsDecoded := by
  intro s f hp hc
  obtain ⟨u, hmarker, hpu, hcu, hemu⟩ := runEvents_marker (listing f.toList) hp hc
  obtain ⟨t, hframe, hpt, hct, hbt, hemt⟩ := runEvents_frame f hpu hcu
  exact ⟨t, hmarker.trans hframe, hpt, hct, hbt, hemu ▸ hemt⟩

/-- The checksum that `PKT` computes holds (R79, R107). -/
theorem chkOk_frameOf_chkSum (x : Fields) : chkOk (frameOf { x with chk := chkSum (frameOf x) }) = true := by
  rw [chkOk, chkField, fieldsOf_frameOf, chkSum, rawSum_frameOf_chk, beq_iff_eq]
  rfl

/-- The sample of a frame of given fields (R122 to R125). -/
theorem decodeFrame_frameOf (x : Fields) : decodeFrame (frameOf x) =
    { qx := normBits x.c, qy := normBits x.b, qz := normBits x.a, qw := normBits x.d,
      gyroX := normBits x.gx, gyroY := normBits x.gy, gyroZ := normBits x.gz,
      accelX := normBits x.ax, accelY := normBits x.ay, accelZ := normBits x.az } := by
  simp only [decodeFrame, sampleOf, quatOf, gyroOf, accelOf, fieldsOf_frameOf]

/-- Settles O50: the packet is decoded as any packet is, its checksum holds, and its frame has the fields given. -/
theorem packetRoundTrip : Obligations.PacketRoundTrip := by
  intro s x hp hc
  obtain ⟨t, hrun, hpt, hct, -, hem⟩ := alignedPacketIsDecoded s (frameOf { x with chk := chkSum (frameOf x) }) hp hc
  rw [if_pos (chkOk_frameOf_chkSum x), decodeFrame_frameOf] at hem
  exact ⟨t, hrun, hpt, hct, hem⟩

end Sys2Proof.Machine
end

section
/-! ## The fields that a selector's state and event show -/

namespace Sys2Proof

/-- The decoder reads `data` of a byte event only (R72; log entry 24): for each kind, what it reads is unchanged. -/
theorem decodeSel_data_of_event (x : Sel) :
    decodeSel { x with data := (Event.ofFields x.kind x.data).data } = decodeSel x := by
  obtain ⟨p, c, k, o, d⟩ := x
  obtain rfl | rfl | rfl | rfl := two_bit_cases k <;> rfl

/-- The code of the phase that a held code stands for (R89). -/
theorem Phase.code_ofCode {c : BitVec 2} (hc : c ≠ 0b11) (p : Phase) : ((Phase.ofCode c).getD p).code = c := by
  obtain rfl | rfl | rfl | rfl := two_bit_cases c
  · rfl
  · rfl
  · rfl
  · exact absurd rfl hc

end Sys2Proof
end

section
/-! ## The placed word -/

namespace Sys2Proof.Machine

variable {s : State} {x : Sel} {i : Instr}

/-- The edge that presents an event's fields delivers that event where nothing is held. -/
theorem delivers_ofSel (x : Sel) (hv : s.out.valid = false) :
    delivers (EdgeIn.ofSel x) s (Event.ofFields x.kind x.data) := by
  unfold EdgeIn.ofSel
  split
  · next b hb => exact .inr ⟨rfl, hv, rfl, hb⟩
  · next hb => exact .inr ⟨rfl, hv, rfl, hb⟩
  · next hb => exact .inr ⟨rfl, hv, rfl, hb⟩
  · next hb => exact .inl ⟨rfl, hb⟩

/-- The state that a selector describes, once the edge that presents its event is gone. -/
theorem selector_presentSel (hp : x.phase ≠ 0b11) (es : List EdgeIn) :
    State.selector { s.presentSel x with edges := es } (Event.ofFields x.kind x.data) =
      { x with data := (Event.ofFields x.kind x.data).data } := by
  simp only [State.selector, State.presentSel, Phase.code_ofCode hp, Event.kind_ofFields]

/-- The step at the edge that presents a selector performs the operation that it decodes to. -/
theorem step_presentSel (h : decodeSel x = .ok i) :
    step (s.presentSel x) =
      perform i (Event.ofFields x.kind x.data) { s.presentSel x with edges := s.edges } := by
  obtain ⟨hp, -, -⟩ := decodeSel_ok_iff.mp h
  have hsel := selector_presentSel (s := s) hp s.edges
  rw [step_cons (rest := s.edges) rfl, edgeStep_of_delivers (delivers_ofSel x rfl)]
  exact takeEvent_of_decode (by rw [hsel, decodeSel_data_of_event, h])

/-- The step at the edge that completes a frame performs `PAYLOAD_LAST` on the frame's last byte. -/
theorem step_presentFrame (s : State) (f : Frame) :
    step (s.presentFrame f) = perform (.payloadLast f[21]) (.byte f[21]) { s.presentFrame f with edges := s.edges } := by
  rw [step_cons (rest := s.edges) rfl, edgeStep_of_delivers (delivers_ofSel _ rfl)]
  exact takeEvent_payload_last f[21] rfl rfl

/-- A frame placed for its completion is reported, and the attempt ends (R97, R115). -/
theorem perform_presentFrame (s : State) (f : Frame) :
    ∃ t, perform (.payloadLast f[21]) (.byte f[21]) { s.presentFrame f with edges := s.edges } = .next t ∧ t.buf = f ∧
      t.phase = .probe ∧ t.cnt = 0 ∧ t.emitted = s.emitted ++ [frameReport f] := by
  obtain ⟨t, ht, hp, hc, hbuf, hem⟩ := perform_payloadLast { s.presentFrame f with edges := s.edges } f[21]
  have hset : f.set 21 f[21] = f := Vector.set_getElem_self _
  exact ⟨t, ht, hbuf.trans hset, hp, hc, hem.trans (by simp only [State.presentFrame, hset])⟩

/-- A table word is read through its code. -/
theorem decodeTableWord_eq_some_iff {nbits w : Nat} {c : Code} (hc : codeOfTable nbits w = some c) :
    decodeTableWord nbits w = some i ↔ decode c = .ok i := by
  simp only [decodeTableWord, hc]
  cases decode c <;> simp

/-- A table word of a selector's length is a selector if it fits the 25 bits, and none otherwise (log entry 23). -/
theorem codeOfTable_of_sel_length {nbits : Nat} (hlo : 17 < nbits) (hhi : nbits ≤ 32) (w : Nat) :
    codeOfTable nbits w = if w < 2 ^ 25 then some (.sel (BitVec.ofNat 25 w)) else none := by
  rw [codeOfTable, if_pos ⟨hlo, hhi⟩]

/-- A table word of a selector's length that decodes is a selector. -/
theorem codeOfTable_of_decodes {nbits w : Nat} (hlo : 17 < nbits) (hhi : nbits ≤ 32) (h : decodeTableWord nbits w = some i) :
    codeOfTable nbits w = some (.sel (BitVec.ofNat 25 w)) := by
  have hcode := codeOfTable_of_sel_length hlo hhi w
  by_cases hw : w < 2 ^ 25
  · rwa [if_pos hw] at hcode
  · rw [if_neg hw] at hcode
    simp [decodeTableWord, hcode] at h

/-- A table word of another length is a frame if it fits the 176 bits (log entry 23). -/
theorem codeOfTable_of_frame_length {nbits w : Nat} (hn : nbits ≤ 17 ∨ 32 < nbits) (hw : w < 2 ^ 176) :
    codeOfTable nbits w = some (.frame (BitVec.ofNat 176 w)) := by
  rw [codeOfTable, if_neg (by omega), if_pos hw]

/-- Settles O37: the word is a selector or a frame by its length, and the next step takes the event that the placing presents. -/
theorem placedWordRunsNext : Obligations.PlacedWordRunsNext := by
  intro s nbits w
  constructor
  · intro hlo hhi i hi
    have hcode := codeOfTable_of_decodes hlo hhi hi
    have hdec : decodeSel (Sel.ofWord (BitVec.ofNat 25 w)) = .ok i := (decodeTableWord_eq_some_iff hcode).mp hi
    have hplace : s.withFetchWord nbits w = s.presentSel (Sel.ofWord (BitVec.ofNat 25 w)) := by
      rw [State.withFetchWord, hcode]
    rw [hplace, step_presentSel hdec]
  · intro hn hw f hf
    have hcode := codeOfTable_of_frame_length hn hw
    have hplace : s.withFetchWord nbits w = s.presentFrame f := by
      rw [State.withFetchWord, hcode, hf]
    obtain ⟨t, ht, hbuf, hp, hc, hem⟩ := perform_presentFrame s f
    rw [hplace, step_presentFrame]
    exact ⟨(decodeTableWord_eq_some_iff hcode).mpr rfl, rfl, t, ht, hbuf, hp, hc, hem⟩

end Sys2Proof.Machine
end

/-! # Proofs: the framer operations, the payload read and the probe (40_framer.md) -/

section
/-! ## A selected row decodes -/

namespace Sys2Proof.Machine

variable {s : State} {e : Event} {i : Instr}

/-- No phase of the state has the code `11` (R89). -/
theorem Phase.code_ne_eleven (p : Phase) : p.code ≠ 0b11 := by cases p <;> decide

/-- The word of a state and an event decodes to an operation exactly when the operation's row is selected and its operands are in the
ranges of R91. -/
theorem decode_selector_iff :
    decode (.sel (s.selector e).word) = .ok i ↔ Selects (s.selector e) i ∧ i.wellFormed = true := by
  rw [decode_sel_word, decodeSel_ok_iff]
  exact and_iff_right (Phase.code_ne_eleven s.phase)

end Sys2Proof.Machine
end

section
/-! ## What a reported outcome leaves behind -/

namespace Sys2Proof.Machine

/-- An outcome in the output register shows the port fields of its encoding (R81, R83). -/
theorem holdsAtPort_of_hold {t : State} {r : Report} {n : Nat} (h : t.out = OutReg.hold r n) :
    holdsAtPort t r.status r.phaseBit r.count.toNat := by
  rw [holdsAtPort, h]
  exact ⟨rfl, rfl, rfl, rfl⟩

/-- A raised outcome is emitted and held at the port, the attempt is discarded, and all else stands (R135). -/
theorem State.raise_reports (s : State) (r : Report) :
    (s.raise r).cnt = 0 ∧ keepsOnReport s (s.raise r) ∧ (s.raise r).emitted = s.emitted ++ [r] ∧
      holdsAtPort (s.raise r) r.status r.phaseBit r.count.toNat :=
  ⟨rfl, ⟨rfl, rfl, rfl, rfl, rfl, rfl⟩, rfl, holdsAtPort_of_hold rfl⟩

@[simp] theorem State.completeFrame_sop0 (s : State) : s.completeFrame.sop0 = s.sop0 := by
  rw [State.completeFrame_eq]; split <;> rfl

/-- The outcome of a completed frame, as the checksum decides it, with its port fields and, of a sample, its ten words (R115). -/
theorem frameReport_at_port {s t : State} {n : Nat} (hem : t.emitted = s.emitted ++ [frameReport t.buf])
    (hout : t.out = OutReg.hold (frameReport t.buf) n) :
    (chkOk t.buf = true ∧ t.emitted = s.emitted ++ [.sample (decodeFrame t.buf)] ∧ holdsAtPort t 0b001 1 22 ∧
        t.out.sample = (decodeFrame t.buf).words) ∨
      (chkOk t.buf = false ∧ t.emitted = s.emitted ++ [.checksumMismatch] ∧ holdsAtPort t 0b011 1 22) := by
  cases hchk : chkOk t.buf with
  | true =>
    have hr : frameReport t.buf = .sample (decodeFrame t.buf) := by simp [frameReport, hchk]
    rw [hr] at hem hout
    exact .inl ⟨rfl, hem, holdsAtPort_of_hold hout, congrArg OutReg.sample hout⟩
  | false =>
    have hr : frameReport t.buf = .checksumMismatch := by simp [frameReport, hchk]
    rw [hr] at hem hout
    exact .inr ⟨rfl, hem, holdsAtPort_of_hold hout⟩

/-- A write at an offset of the buffer goes on (R96). -/
theorem exec_payloadByte {s : State} {i : Cnt} (b : Byte) (hi : i.toNat < 22) :
    exec (.payloadByte i b) s = .next { s.writeBuf ⟨i.toNat, hi⟩ b with cnt := i + 1 } :=
  dif_pos hi

end Sys2Proof.Machine
end

section
/-! ## At most one outcome per step -/

namespace Sys2Proof.Machine

variable {s t : State}

/-- `t` has at most one outcome more than `s`, and those of `s` unchanged before it (R92). -/
def EmitsAtMostOne (s t : State) : Prop := ∃ l, t.emitted = s.emitted ++ l ∧ l.length ≤ 1

theorem EmitsAtMostOne.of_eq (h : t.emitted = s.emitted) : EmitsAtMostOne s t :=
  ⟨[], by rw [h, List.append_nil], Nat.zero_le 1⟩

theorem EmitsAtMostOne.of_append {r : Report} (h : t.emitted = s.emitted ++ [r]) : EmitsAtMostOne s t :=
  ⟨[r], h, Nat.le_refl 1⟩

/-- Each operation that reports does so once: `FRAME_COMPLETE` emits either the sample or the mismatch, and `PAYLOAD_LAST` reports
through it alone. -/
theorem exec_emits_at_most_one {i : Instr} (h : exec i s = .next t) : EmitsAtMostOne s t := by
  cases i with
  | xportFail | probeMiss | probeEnd | payloadEnd => cases h; exact .of_append rfl
  | payloadLast | frameComplete => cases h; exact .of_append (State.completeFrame_emitted _)
  | payloadByte n b =>
    obtain hn | hn := Nat.lt_or_ge n.toNat 22
    · rw [exec_payloadByte b hn] at h; cases h; exact .of_eq rfl
    · rw [exec_payloadByte_beyond b hn] at h; cases h
  | reset | failedHold | probeMatch | probeFirst | validate | decodeQuat | decodeGyro | decodeAccel | normalize =>
    cases h; exact .of_eq rfl

/-- An event step emits what the operation it performs emits. -/
theorem takeEvent_emits_at_most_one {e : Event} (h : takeEvent e s = .next t) : EmitsAtMostOne s t := by
  obtain ⟨i, -, hperf⟩ := takeEvent_next h
  obtain ⟨u, hu, rfl⟩ := perform_next hperf
  obtain ⟨l, hl, hlen⟩ := exec_emits_at_most_one hu
  exact ⟨l, by split <;> exact hl, hlen⟩

/-- At an edge only an event emits. -/
theorem edgeStep_emits_at_most_one {g : EdgeIn} (h : edgeStep g s = .next t) : EmitsAtMostOne s t := by
  obtain ⟨-, hs⟩ | ⟨-, -, -, hs⟩ | ⟨-, -, -, hs⟩ | ⟨-, -, -, hs⟩ | ⟨-, -, -, hs⟩ := edgeStep_cases g s <;> rw [hs] at h
  · exact takeEvent_emits_at_most_one h
  · obtain ⟨r, -, rfl⟩ := State.handOver_next h
    exact .of_eq rfl
  · cases h; exact .of_eq rfl
  · exact takeEvent_emits_at_most_one h
  · cases h; exact .of_eq rfl

/-- Settles O44: a step is at most one edge, which takes at most one event, which performs one operation. -/
theorem atMostOneOutcomePerStep : Obligations.AtMostOneOutcomePerStep := by
  intro s t h
  cases he : s.edges with
  | nil => rw [step_nil he] at h; cases h; exact EmitsAtMostOne.of_eq rfl
  | cons g rest =>
    rw [step_cons he] at h
    exact edgeStep_emits_at_most_one (s := { s with edges := rest }) h

end Sys2Proof.Machine
end

section
/-! ## The framer operations -/

namespace Sys2Proof.Machine

/-- Settles O48, by the induction over the bytes of a payload read. -/
theorem payloadBytesAreNotExamined : Obligations.PayloadBytesAreNotExamined :=
  fun bs _ hp hc => runEvents_payload_bytes bs hp hc

/-- Settles O1: `PROBE_FIRST` by its definition, and its row. -/
theorem probeFirstStoresTheByte : Obligations.ProbeFirstStoresTheByte := fun _ _ =>
  ⟨rfl, fun hp hc => decode_selector_iff.mpr ⟨.probeFirst (congrArg Phase.code hp) rfl hc, rfl⟩⟩

/-- Settles O2: the row of `PROBE_MATCH` carries the condition on the two bytes. -/
theorem probeMatchStartsThePayload : Obligations.ProbeMatchStartsThePayload := by
  refine fun s => ⟨rfl, fun b hp hc => ?_⟩
  rw [decode_selector_iff]
  constructor
  · rintro ⟨hsel, -⟩
    cases hsel with
    | probeMatch _ _ _ hd => exact hd
  · exact fun hd => ⟨.probeMatch (congrArg Phase.code hp) rfl hc hd, rfl⟩

/-- Settles O3: the row of `PROBE_MISS` is the one for the pairs that `PROBE_MATCH` leaves. -/
theorem probeMissReportsNoSop : Obligations.ProbeMissReportsNoSop := by
  refine fun s b0 b1 => ⟨⟨_, rfl, rfl, rfl, ⟨rfl, rfl, rfl, rfl, rfl, rfl⟩, rfl, holdsAtPort_of_hold (r := .noSop) rfl⟩, ?_⟩
  rintro hp hc rfl hd
  have hwf : (Instr.probeMiss s.sop0 b1).wellFormed = true := by
    simpa [Config.sop0, Config.sop1] using not_and_or.mp hd
  exact decode_selector_iff.mpr ⟨.probeMiss (congrArg Phase.code hp) rfl hc hd, hwf⟩

/-- Settles O4: up to offset 20 neither the write nor the count overflows. -/
theorem payloadByteWritesTheBuffer : Obligations.PayloadByteWritesTheBuffer := by
  intro s i b hi
  have hlt : i.toNat < 22 := by omega
  have hcnt : (i + 1).toNat = i.toNat + 1 := by bv_omega
  refine ⟨⟨_, exec_payloadByte b hlt, hcnt, fun j => ?_, rfl⟩, ?_⟩
  · exact (s.readBuf_writeBuf ⟨i.toNat, hlt⟩ j b).trans (if_congr Fin.ext_iff rfl rfl)
  · rintro hp rfl
    have hne : s.cnt ≠ 21 := fun h => by simp [h] at hi
    have hwf : s.cnt.toNat + 1 < ReadPhase.payload.len := Nat.lt_succ_of_le (Nat.succ_le_succ hi)
    exact decode_selector_iff.mpr ⟨.payloadByte (congrArg Phase.code hp) rfl hne, decide_eq_true hwf⟩

/-- Settles O6: `FRAME_COMPLETE` leaves the completed buffer alone and reports it once. -/
theorem payloadLastCompletesTheFrame : Obligations.PayloadLastCompletesTheFrame := by
  refine fun s b => ⟨⟨{ (s.writeBuf 21 b).completeFrame with phase := .probe, cnt := 0 }, rfl, rfl, rfl, ?_⟩, ?_⟩
  · have hbuf : (s.writeBuf 21 b).completeFrame.buf = (s.writeBuf 21 b).buf := State.completeFrame_buf _
    refine ⟨State.completeFrame_sop0 _, fun j => ?_, State.completeFrame_nets _, State.completeFrame_edges _,
      State.completeFrame_consumed _, State.completeFrame_received _, frameReport_at_port (n := s.free) ?_ ?_⟩
    · rw [State.readBuf, hbuf]
      exact (s.readBuf_writeBuf 21 j b).trans (if_congr Fin.ext_iff rfl rfl)
    · exact hbuf ▸ State.completeFrame_emitted _
    · exact hbuf ▸ State.completeFrame_out _
  · exact fun hp hc => decode_selector_iff.mpr ⟨.payloadLast (congrArg Phase.code hp) rfl hc, rfl⟩

/-- Settles O7: the outcome raised, and the row. -/
theorem probeEndReportsShortRead : Obligations.ProbeEndReportsShortRead := by
  refine fun s k => ⟨⟨_, rfl, rfl, s.raise_reports (.shortRead .probe k)⟩, ?_⟩
  rintro hp rfl hk
  have hwf : (Instr.probeEnd s.cnt).wellFormed = true := decide_eq_true (Nat.lt_succ_of_le hk)
  exact decode_selector_iff.mpr ⟨.probeEnd (congrArg Phase.code hp) rfl, hwf⟩

/-- Settles O8: the outcome raised, and the row. -/
theorem payloadEndReportsShortRead : Obligations.PayloadEndReportsShortRead := by
  refine fun s k => ⟨⟨_, rfl, rfl, s.raise_reports (.shortRead .payload k)⟩, ?_⟩
  rintro hp rfl hk
  have hwf : (Instr.payloadEnd s.cnt).wellFormed = true := decide_eq_true (Nat.lt_succ_of_le hk)
  exact decode_selector_iff.mpr ⟨.payloadEnd (congrArg Phase.code hp) rfl, hwf⟩

/-- Settles O9: the outcome raised, and the row, for either read. -/
theorem xportFailReportsTheFailure : Obligations.XportFailReportsTheFailure := by
  refine fun s ph k => ⟨⟨s.raise (.transportFailure ph k), rfl, rfl, ?_⟩, ?_⟩
  · cases ph <;> exact s.raise_reports _
  · rintro hp rfl hk
    have hph : (s.selector .fail).phase = ph.code := by cases ph <;> exact congrArg Phase.code hp
    exact decode_selector_iff.mpr ⟨.xportFail ph hph rfl, decide_eq_true hk⟩

/-- Settles O10, from the selection, the event step and the run in `FAILED`. -/
theorem failedHoldTakesNothing : Obligations.FailedHoldTakesNothing := by
  refine fun s e => ⟨rfl, fun hp he => ⟨?_, takeEvent_failed hp he, ?_, fun _ => runEvents_stuck hp he⟩⟩
  · rw [decode_sel_word, decodeSel_failed hp he]
  · simp [State.rxReady, hp]

/-- Settles O51: the first byte is stored, and the second makes the pair miss. -/
theorem otherPairsYieldNoSop : Obligations.OtherPairsYieldNoSop := by
  intro s b0 b1 hp hc hd
  have hpos : s.posOk = true := State.posOk_of_cnt_zero hc
  have hfirst := EventStep.probeFirst b0 hp hc
  have hmiss := EventStep.probeMiss (s := State.record { s with sop0 := b0, cnt := 1 } (.byte b0)) b1 hp rfl hd
  have hrun := (runEvents_eventStep [.byte b1] hpos (by simp [hp]) hfirst).trans
    (runEvents_eventStep [] (hfirst.posOk hpos) (by simp [hp]) hmiss)
  exact ⟨_, hrun, hp, rfl, rfl, rfl⟩

end Sys2Proof.Machine
end

/-! # Proofs: the validator (41_validator.md) -/

section
/-! ## The checksum: the sum over the data bytes and the field, on unbounded integers -/

namespace Sys2Proof.Machine

/-- The data bytes, as the sum of R107 takes them, are listed by offset. -/
theorem map_toNat_take_dataLen (f : Frame) :
    (f.toList.take Config.dataLen).map BitVec.toNat = List.ofFn fun i : Fin 20 => f[i.val].toNat := by
  apply List.ext_getElem
  · simp [Config.dataLen]
  · intro i _ _
    simp only [List.getElem_map, List.getElem_take, Vector.getElem_toList, List.getElem_ofFn]

theorem rawSum_eq_sum (f : Frame) : rawSum f = 0x55 + 0x55 + ∑ i : Fin 20, f[i.val].toNat := by
  rw [rawSum, map_toNat_take_dataLen, List.sum_ofFn]
  rfl

/-- R109: 20 bytes of at most 255 each. -/
theorem rawSum_range (f : Frame) : 0x00AA ≤ rawSum f ∧ rawSum f ≤ 0x1496 := by
  have hle : ∑ i : Fin 20, f[i.val].toNat ≤ 20 * 255 := by
    simpa using Finset.sum_le_card_nsmul Finset.univ (fun i : Fin 20 => f[i.val].toNat) 255 fun i _ =>
      Nat.le_of_lt_succ f[i.val].isLt
  rw [rawSum_eq_sum]
  omega

/-- The reduction of R107 never changes the sum. -/
theorem chkSum_toNat (f : Frame) : (chkSum f).toNat = rawSum f := by
  have hlt : rawSum f < 2 ^ 16 := (rawSum_range f).2.trans_lt (by decide)
  rw [chkSum, BitVec.toNat_ofNat, Nat.mod_eq_of_lt hlt]

theorem chkSum_eq_iff {f g : Frame} : chkSum f = chkSum g ↔ rawSum f = rawSum g := by
  rw [← BitVec.toNat_inj, chkSum_toNat, chkSum_toNat]

theorem rawSum_eq_iff {f g : Frame} : rawSum f = rawSum g ↔
    ((f.toList.take 20).map BitVec.toNat).sum = ((g.toList.take 20).map BitVec.toNat).sum :=
  Nat.add_left_cancel_iff

/-- The sum moves by as much as the data byte that is replaced. -/
theorem rawSum_set_data (f : Frame) (i : Fin 20) (b : Byte) :
    rawSum (f.set i.val b) + f[i.val].toNat = rawSum f + b.toNat := by
  have hrest : ∑ j ∈ Finset.univ.erase i, (f.set i.val b)[j.val].toNat = ∑ j ∈ Finset.univ.erase i, f[j.val].toNat :=
    Finset.sum_congr rfl fun j hj => by
      have hne : i.val ≠ j.val := fun h => Finset.ne_of_mem_erase hj (Fin.ext h.symm)
      rw [Vector.getElem_set_ne _ _ hne]
  have hi : (f.set i.val b)[i.val] = b := Vector.getElem_set_self _
  rw [rawSum_eq_sum, rawSum_eq_sum, ← Finset.add_sum_erase _ _ (Finset.mem_univ i),
    ← Finset.add_sum_erase _ (fun j : Fin 20 => f[j.val].toNat) (Finset.mem_univ i), hrest, hi]
  omega

/-- The two checksum bytes have no part in the sum. -/
theorem rawSum_set_checksum (f : Frame) {i : Nat} (hi : i < 22) (h20 : 20 ≤ i) (b : Byte) :
    rawSum (f.set i b) = rawSum f := by
  rw [rawSum_eq_iff, Vector.toList_set, List.take_set_of_le h20]

/-- R70: the checksum field is little-endian. -/
theorem chkField_toNat (f : Frame) : (chkField f).toNat = f[21].toNat * 256 + f[20].toNat := by
  have happ : chkField f = f[21] ++ f[20] := rfl
  rw [happ, BitVec.toNat_append, Nat.shiftLeft_eq, mul_comm, ← Nat.two_pow_add_eq_or_of_lt f[20].isLt, mul_comm]

theorem chkField_eq_iff {f g : Frame} : chkField f = chkField g ↔ f[20] = g[20] ∧ f[21] = g[21] := by
  simp only [← BitVec.toNat_inj, chkField_toNat]
  have hf := f[20].isLt
  have hg := g[20].isLt
  omega

theorem chkOk_iff {f : Frame} : chkOk f = true ↔ chkSum f = chkField f := beq_iff_eq

theorem chkOk_eq_false_iff {f : Frame} : chkOk f = false ↔ chkSum f ≠ chkField f := beq_eq_false_iff_ne

/-- A valid frame whose sum and field both stay as they are validates still. -/
theorem chkOk_of_eq {f g : Frame} (hf : chkOk f = true) (hS : chkSum g = chkSum f) (hC : chkField g = chkField f) :
    chkOk g = true := by
  rw [chkOk_iff, hS, hC, ← chkOk_iff, hf]

end Sys2Proof.Machine
end

section
/-! ## What the checksum catches, and what it does not -/

namespace Sys2Proof.Machine

/-- Settles O20: the range of the sum lies below `2^16`. -/
theorem checksumRange : Obligations.ChecksumRange := fun f =>
  have ⟨hlo, hhi⟩ := rawSum_range f
  ⟨hlo, hhi, chkSum_toNat f⟩

/-- Settles O13: the sum and the field, each as the integer that it stands for. -/
theorem validateComparesTheChecksum : Obligations.ValidateComparesTheChecksum := by
  refine fun s => ⟨s.driveChk, rfl, ?_, rfl⟩
  have hS : (0x55 + 0x55 + ∑ i : Fin 20, (s.readBuf ⟨i.val, by omega⟩).toNat) % 2 ^ 16 = (chkSum s.buf).toNat := by
    rw [chkSum, BitVec.toNat_ofNat, rawSum_eq_sum]
    rfl
  have hC : (s.readBuf 21).toNat * 256 + (s.readBuf 20).toNat = (chkField s.buf).toNat := (chkField_toNat s.buf).symm
  rw [State.driveChk_nets, hS, hC, Bool.eq_iff_iff, decide_eq_true_iff, BitVec.toNat_inj, chkOk_iff]

/-- Settles O21: the sum moves by the difference of the two bytes, and the field stays. -/
theorem singleByteChangeIsCaught : Obligations.SingleByteChangeIsCaught := by
  intro f i b hi hb
  have hS : chkSum (f.set i.val b) ≠ chkSum f := by
    rw [Ne, chkSum_eq_iff]
    intro hsum
    have hmove := rawSum_set_data f ⟨i.val, hi⟩ b
    exact hb (BitVec.eq_of_toNat_eq (by simpa [hsum] using hmove.symm))
  have hC : chkField (f.set i.val b) = chkField f := chkField_eq_iff.mpr
    ⟨Vector.getElem_set_ne _ _ (by omega), Vector.getElem_set_ne _ _ (by omega)⟩
  refine ⟨hS, fun hf => chkOk_eq_false_iff.mpr fun hg => hS ?_⟩
  rw [hg, hC, chkOk_iff.mp hf]

/-- Settles O22: the sum stays, and the field changes with either of its bytes. -/
theorem checksumByteChangeIsCaught : Obligations.ChecksumByteChangeIsCaught := by
  intro f i b hi hb
  have hS : chkSum (f.set i.val b) = chkSum f := chkSum_eq_iff.mpr (rawSum_set_checksum f i.isLt hi b)
  have hC : chkField (f.set i.val b) ≠ chkField f := by
    rw [Ne, chkField_eq_iff]
    rintro ⟨h20, h21⟩
    have hself : (f.set i.val b)[i.val] = b := Vector.getElem_set_self _
    obtain hv | hv : i.val = 20 ∨ i.val = 21 := by omega
    · exact hb (by simpa [hv] using h20)
    · exact hb (by simpa [hv] using h21)
  refine ⟨hC, hS, fun hf => chkOk_eq_false_iff.mpr fun hg => hC ?_⟩
  rw [← hg, hS, chkOk_iff.mp hf]

/-- Settles O23: the first two kinds of change keep both the sum and the field, and the third moves both by the same amount. -/
theorem undetectedChangesValidate : Obligations.UndetectedChangesValidate := by
  intro f g hf
  have hkeep (hsum : ((f.toList.take 20).map BitVec.toNat).sum = ((g.toList.take 20).map BitVec.toNat).sum)
      (h20 : f[20] = g[20]) (h21 : f[21] = g[21]) : chkOk g = true :=
    chkOk_of_eq hf (chkSum_eq_iff.mpr (rawSum_eq_iff.mpr hsum)).symm (chkField_eq_iff.mpr ⟨h20, h21⟩).symm
  refine ⟨hkeep, fun hperm => hkeep (hperm.map BitVec.toNat).sum_eq, fun hC => chkOk_iff.mpr ?_⟩
  rw [hC, ← chkOk_iff.mp hf, add_sub_cancel]

end Sys2Proof.Machine
end

section
/-! ## Where a sample comes from -/

namespace Sys2Proof.Machine

variable {s t : State} {e : Event} {w : Sample}

/-- A frame is reported as a sample only if its checksum holds, and the sample is its decode (R115, R116). -/
theorem frameReport_eq_sample {f : Frame} (h : frameReport f = .sample w) : chkOk f = true ∧ w = decodeFrame f := by
  rw [frameReport] at h
  split at h
  · next hchk => exact ⟨hchk, (Report.sample.inj h).symm⟩
  · cases h

/-- Of the ten event steps only `PAYLOAD_LAST` can emit a sample: the others emit nothing or another outcome. -/
theorem EventStep.of_sample (h : EventStep s e t) (hem : t.emitted = s.emitted ++ [.sample w]) :
    s.phase = .payload ∧ s.cnt = 21 ∧
      ∃ b, t.consumed = s.consumed ++ [.byte b] ∧ chkOk (s.buf.set 21 b) = true ∧ w = decodeFrame (s.buf.set 21 b) := by
  cases h with
  | payloadLast b hp hc =>
    have hrep : frameReport (s.buf.set 21 b) = .sample w := by simpa using hem
    exact ⟨hp, hc, b, by simp, frameReport_eq_sample hrep⟩
  | reset | failedHold | probeFirst | probeMatch | payloadByte | xportFail | probeMiss | probeEnd | payloadEnd => simp at hem

/-- Settles O45: of the four things a step can do only an event emits, and of the event steps only `PAYLOAD_LAST` emits a sample. -/
theorem samplesComeFromValidFramesOnly : Obligations.SamplesComeFromValidFramesOnly := by
  intro s t w hs ht hem
  cases stepMove_of_step hs ht with
  | noEdge | hold | handOver => simp at hem
  | event g rest e _ _ _ hstep => exact hstep.of_sample hem

end Sys2Proof.Machine
end

/-! # Proofs: the decoder (42_decoder.md) -/

section
/-! ## The layout of a binary32 word -/

namespace Sys2Proof.Machine

/-- A word put together from a sign bit, a biased exponent and a fraction, each in its range, has those three fields (R17). -/
theorem f32_fields_ofNat {sgn ex fr : Nat} (hs : sgn < 2) (hx : ex < 2 ^ 8) (hf : fr < 2 ^ 23) :
    let w : F32 := BitVec.ofNat 32 ((sgn <<< 31) ||| (ex <<< 23) ||| fr)
    f32Sign w = sgn ∧ f32Exp w = ex ∧ f32Frac w = fr := by
  intro w
  have hlow : 2 ^ 23 * ex + fr < 2 ^ 31 := by omega
  have hw : w.toNat = 2 ^ 31 * sgn + (2 ^ 23 * ex + fr) := by
    rw [BitVec.toNat_ofNat, Nat.or_assoc, Nat.shiftLeft_eq, Nat.shiftLeft_eq, mul_comm sgn, mul_comm ex,
      ← Nat.two_pow_add_eq_or_of_lt hf, ← Nat.two_pow_add_eq_or_of_lt hlow]
    exact Nat.mod_eq_of_lt (by omega)
  rw [f32Sign, f32Exp, f32Frac, hw]
  omega

/-- The value of a word that is neither zero, subnormal, infinite nor a NaN: IEEE 754, bias 127 (R17). -/
theorem f32Value_of_normal {w : F32} (h0 : f32Exp w ≠ 0) (h255 : f32Exp w ≠ 255) :
    f32Value w =
      some ((if f32Sign w = 1 then -1 else 1) * ((2 ^ 23 + f32Frac w : ℕ) : ℚ) * 2 ^ f32Exp w / 2 ^ 150) := by
  rw [f32Value, if_neg h255, if_neg h0]

theorem f32Value_zero : f32Value 0 = some 0 := by
  have hexp : f32Exp 0 = 0 := by decide
  have hfrac : f32Frac 0 = 0 := by decide
  rw [f32Value, hexp, hfrac, if_neg (by decide), if_pos rfl, Nat.cast_zero, mul_zero, zero_div]

end Sys2Proof.Machine
end

section
/-! ## The normaliser -/

namespace Sys2Proof.Machine

/-- A positive magnitude, shifted so that its leading bit is bit 23, is a binary32 significand. -/
theorem shiftLeft_significand {m : Nat} (hm : m ≠ 0) (he : m.log2 ≤ 23) :
    2 ^ 23 ≤ m <<< (23 - m.log2) ∧ m <<< (23 - m.log2) < 2 ^ 24 := by
  rw [Nat.shiftLeft_eq]
  constructor
  · calc 2 ^ 23 = 2 ^ m.log2 * 2 ^ (23 - m.log2) := by rw [← pow_add, Nat.add_sub_cancel' he]
      _ ≤ m * 2 ^ (23 - m.log2) := Nat.mul_le_mul_right _ (Nat.log2_self_le hm)
  · calc m * 2 ^ (23 - m.log2) < 2 ^ (m.log2 + 1) * 2 ^ (23 - m.log2) :=
          Nat.mul_lt_mul_of_pos_right Nat.lt_log2_self (Nat.two_pow_pos _)
      _ = 2 ^ 24 := by rw [← pow_add]; congr 1; omega

/-- Bounds of the two's-complement reading (R14). -/
theorem half_toInt_range (v : Half) : -32768 ≤ v.toInt ∧ v.toInt ≤ 32767 :=
  ⟨v.le_toInt, Int.le_of_lt_add_one v.toInt_lt⟩

/-- The leading bit of a 16-bit integer's magnitude is at most bit 15, which only `-32768` has. -/
theorem log2_natAbs_toInt_le (v : Half) : v.toInt.natAbs.log2 ≤ 15 := by
  obtain hv | hv := eq_or_ne v.toInt.natAbs 0
  · simp [hv]
  · have hrange := half_toInt_range v
    exact Nat.le_of_lt_succ ((Nat.log2_lt hv).mpr (by omega))

theorem normBits_of_toInt_zero {v : Half} (hv : v.toInt = 0) : normBits v = 0 := if_pos hv

/-- The fields of `N(v)` for a nonzero `v` (R119): its sign, the place of the leading bit of its magnitude, and the bits below that. -/
theorem normBits_fields {v : Half} (hv : v.toInt ≠ 0) :
    f32Sign (normBits v) = (if v.toInt < 0 then 1 else 0) ∧
    f32Exp (normBits v) = 112 + v.toInt.natAbs.log2 ∧
    2 ^ 23 + f32Frac (normBits v) = v.toInt.natAbs <<< (23 - v.toInt.natAbs.log2) := by
  have he := log2_natAbs_toInt_le v
  obtain ⟨hlo, hhi⟩ := shiftLeft_significand (Int.natAbs_ne_zero.mpr hv) (by omega)
  have hbits : normBits v = BitVec.ofNat 32 (((if v.toInt < 0 then 1 else 0) <<< 31) |||
      ((112 + v.toInt.natAbs.log2) <<< 23) ||| (v.toInt.natAbs <<< (23 - v.toInt.natAbs.log2) - 2 ^ 23)) := if_neg hv
  have hsgn : (if v.toInt < 0 then 1 else 0) < 2 := by split <;> decide
  obtain ⟨hs, hx, hf⟩ := f32_fields_ofNat hsgn (ex := 112 + v.toInt.natAbs.log2) (by omega)
    (fr := v.toInt.natAbs <<< (23 - v.toInt.natAbs.log2) - 2 ^ 23) (by omega)
  rw [hbits, hs, hx, hf]
  exact ⟨rfl, rfl, Nat.add_sub_cancel' hlo⟩

/-- `N(v)` of a nonzero `v` is a normal number, of magnitude at least `2^-15` and below `2` (R121). -/
theorem f32Exp_normBits_range {v : Half} (hv : v.toInt ≠ 0) :
    112 ≤ f32Exp (normBits v) ∧ f32Exp (normBits v) ≤ 127 := by
  obtain ⟨-, hx, -⟩ := normBits_fields hv
  have he := log2_natAbs_toInt_le v
  omega

/-- R117: no bit of the integer is lost, as the significand has 24 bits and the magnitude at most 16. -/
theorem f32Value_normBits (v : Half) : f32Value (normBits v) = some ((v.toInt : ℚ) / 32768) := by
  obtain hv | hv := eq_or_ne v.toInt 0
  · rw [normBits_of_toInt_zero hv, hv]
    exact f32Value_zero.trans (by norm_num)
  · obtain ⟨hs, hx, hf⟩ := normBits_fields hv
    have hrange := f32Exp_normBits_range hv
    have he := log2_natAbs_toInt_le v
    have hsgn : (if f32Sign (normBits v) = 1 then (-1 : ℚ) else 1) * (v.toInt.natAbs : ℚ) = v.toInt := by
      rw [hs, Nat.cast_natAbs]
      obtain hneg | hpos := lt_or_ge v.toInt 0
      · simp [hneg, abs_of_neg hneg]
      · simp [not_lt.mpr hpos, abs_of_nonneg hpos]
    have hscale : (2 : ℚ) ^ (23 - v.toInt.natAbs.log2) * 2 ^ (112 + v.toInt.natAbs.log2) = 2 ^ 135 := by
      rw [← pow_add]; congr 1; omega
    rw [f32Value_of_normal (by omega) (by omega), hf, Nat.shiftLeft_eq, Nat.cast_mul, Nat.cast_pow, Nat.cast_ofNat, hx,
      ← mul_assoc, hsgn, mul_assoc, hscale]
    congr 1
    ring

/-- The value of `N(v)` gives `v` back, so the encoding does. -/
theorem normBits_inj {u v : Half} : normBits u = normBits v ↔ u = v := by
  refine ⟨fun h => BitVec.toInt_inj.mp ?_, congrArg normBits⟩
  have hval := congrArg f32Value h
  rw [f32Value_normBits, f32Value_normBits, Option.some_inj, div_left_inj' (by norm_num)] at hval
  exact_mod_cast hval

/-- Settles O17, from the value of the closed form. -/
theorem normalizeIsExact : Obligations.NormalizeIsExact := fun s v =>
  ⟨s.driveNorm v, rfl, f32Value_normBits v, rfl⟩

/-- Settles O18: the range of the integer, divided by 32768. -/
theorem normalizeRange : Obligations.NormalizeRange := by
  have hmin : (0x8000 : Half).toInt = -32768 := by decide
  have hmax : (0x7FFF : Half).toInt = 32767 := by decide
  refine ⟨?_, ?_, fun v => ?_⟩
  · rw [f32Value_normBits, hmin]; norm_num
  · rw [f32Value_normBits, hmax]; norm_num
  · obtain ⟨hlo, hhi⟩ := half_toInt_range v
    refine ⟨_, f32Value_normBits v, ?_, ?_, ?_, ?_, ?_⟩
    · rw [le_div_iff₀ (by norm_num)]
      exact_mod_cast hlo
    · rw [div_le_div_iff_of_pos_right (by norm_num)]
      exact_mod_cast hhi
    · rw [Ne, div_eq_one_iff_eq (by norm_num)]
      norm_cast
      omega
    · rw [div_eq_iff (by norm_num)]
      norm_cast
    · have hbits : normBits 0x8000 = 0xBF800000 := by decide
      rw [← hbits, normBits_inj, ← BitVec.toInt_inj, hmin]

/-- Settles O19: a nonzero integer has an exponent from 112 to 127, and its value gives it back. -/
theorem normalizeIsInjectiveAndNormal : Obligations.NormalizeIsInjectiveAndNormal := by
  refine ⟨normBits_of_toInt_zero rfl, fun v => ?_, fun _ _ => normBits_inj.mp,
    fun v => ⟨_, f32Value_normBits v, (div_mul_cancel₀ _ (by norm_num)).symm⟩⟩
  obtain hv | hv := eq_or_ne v.toInt 0
  · rw [normBits_of_toInt_zero hv]
    decide
  · have hrange := f32Exp_normBits_range hv
    refine ⟨fun h => ?_, by omega, by omega⟩
    have hexp : f32Exp 0x80000000 = 0 := by decide
    rw [h, hexp] at hrange
    omega

end Sys2Proof.Machine
end

section
/-! ## The frame operations -/

namespace Sys2Proof.Machine

/-- R65: a big-endian field of the buffer, from its two bytes. -/
theorem be16_buf (s : State) (i : Fin 21) : be16 s.buf i = s.readBuf i.castSucc ++ s.readBuf i.succ := rfl

/-- R66: a little-endian field of the buffer, from its two bytes. -/
theorem le16_buf (s : State) (i : Fin 21) : le16 s.buf i = s.readBuf i.succ ++ s.readBuf i.castSucc := rfl

/-- Settles O12: the two branches of `FRAME_COMPLETE`. -/
theorem frameCompleteClassifiesTheFrame : Obligations.FrameCompleteClassifiesTheFrame := by
  refine fun s => ⟨fun hok => ⟨(s.emit (.sample (decodeFrame s.buf))).idleNets, ?_, rfl, ?_, rfl, rfl⟩,
    fun hbad => ⟨(s.raise .checksumMismatch).idleNets, ?_, rfl, ?_, rfl⟩⟩
  · exact congrArg Host.Outcome.next (s.completeFrame_eq.trans (if_pos hok))
  · exact holdsAtPort_of_hold (r := .sample (decodeFrame s.buf)) rfl
  · exact congrArg Host.Outcome.next (s.completeFrame_eq.trans (if_neg (by simp [hbad])))
  · exact holdsAtPort_of_hold (r := .checksumMismatch) rfl

/-- Settles O14: the lanes of `quatOf`, each from its big-endian field. -/
theorem decodeQuatPermutesTheAxes : Obligations.DecodeQuatPermutesTheAxes := fun s =>
  ⟨s.driveQuat, rfl, congrArg normBits (be16_buf s 0), congrArg normBits (be16_buf s 2),
    congrArg normBits (be16_buf s 4), congrArg normBits (be16_buf s 6), rfl⟩

/-- Settles O15: the lanes of `gyroOf`, each from its little-endian field. -/
theorem decodeGyroIsLittleEndian : Obligations.DecodeGyroIsLittleEndian := fun s =>
  ⟨s.driveGyro, rfl, congrArg normBits (le16_buf s 8), congrArg normBits (le16_buf s 10),
    congrArg normBits (le16_buf s 12), rfl⟩

/-- Settles O16: the lanes of `accelOf`, each from its little-endian field. -/
theorem decodeAccelIsLittleEndian : Obligations.DecodeAccelIsLittleEndian := fun s =>
  ⟨s.driveAccel, rfl, congrArg normBits (le16_buf s 14), congrArg normBits (le16_buf s 16),
    congrArg normBits (le16_buf s 18), rfl⟩

end Sys2Proof.Machine
end

/-! # Proofs: the outcomes, the way out of `FAILED` and the priority of the inputs (60_exceptions.md) -/

section
/-! ## Where an outcome leaves the core -/

namespace Sys2Proof.Machine

variable {s t : State} {e : Event} {r : Report}

/-- Only a transport failure leads to `FAILED` (R137). -/
theorem Report.nextPhase_eq_failed_iff : r.nextPhase = .failed ↔ ∃ ph k, r = .transportFailure ph k := by
  cases r <;> simp

/-- Every outcome but a transport failure leads to the next attempt (R143). -/
theorem Report.nextPhase_eq_probe (h : ∀ ph k, r ≠ .transportFailure ph k) : r.nextPhase = .probe := by
  cases r with
  | transportFailure ph k => exact absurd rfl (h ph k)
  | noSop | sample | shortRead | checksumMismatch => rfl

/-- A completed frame is no transport failure. -/
@[simp] theorem Report.nextPhase_frameReport (f : Frame) : (frameReport f).nextPhase = .probe := by
  rw [frameReport]; split <;> rfl

/-- From `s` to `t` either one outcome is reported, which sets the phase and puts the count at 0, or none is, and `FAILED` is not
entered (R135, R137). -/
def LandsByOutcome (s t : State) : Prop :=
  (∃ r, t.emitted = s.emitted ++ [r] ∧ t.phase = r.nextPhase ∧ t.cnt = 0) ∨
    (t.emitted = s.emitted ∧ (t.phase = .failed → s.phase = .failed))

theorem LandsByOutcome.of_same_phase (hem : t.emitted = s.emitted) (hp : t.phase = s.phase) : LandsByOutcome s t :=
  .inr ⟨hem, fun hf => hp.symm.trans hf⟩

/-- The event steps that report raise their outcome, but for the two that return to `PROBE` by themselves, `PROBE_MISS` and
`PAYLOAD_LAST`, whose outcomes are no transport failures. -/
theorem EventStep.lands (h : EventStep s e t) : LandsByOutcome s t := by
  cases h with
  | reset => exact .inr ⟨rfl, fun hf => by simp at hf⟩
  | probeMatch => exact .inr ⟨rfl, fun hf => by simp at hf⟩
  | failedHold | probeFirst | payloadByte => exact .of_same_phase rfl rfl
  | xportFail | probeEnd | payloadEnd => exact .inl ⟨_, rfl, rfl, rfl⟩
  | probeMiss b hp => exact .inl ⟨.noSop, rfl, hp, rfl⟩
  | payloadLast b => exact .inl ⟨_, State.completeFrame_emitted _, (Report.nextPhase_frameReport _).symm, rfl⟩

theorem StepMove.lands (h : StepMove s t) : LandsByOutcome s t := by
  cases h with
  | noEdge | hold | handOver => exact .of_same_phase rfl rfl
  | event g rest e _ _ _ ht => exact ht.lands

/-- The outcome that a step appends decides where it lands. -/
theorem LandsByOutcome.of_emitted (h : LandsByOutcome s t) (hem : t.emitted = s.emitted ++ [r]) :
    t.phase = r.nextPhase ∧ t.cnt = 0 := by
  obtain ⟨r', hem', hland⟩ | ⟨hem', -⟩ := h
  · obtain rfl : r' = r := by simpa [hem'] using hem
    exact hland
  · simp [hem'] at hem

/-- `FAILED` is entered by a transport failure alone. -/
theorem LandsByOutcome.enters_failed (h : LandsByOutcome s t) (hs : s.phase ≠ .failed) (ht : t.phase = .failed) :
    ∃ ph k, t.emitted = s.emitted ++ [.transportFailure ph k] := by
  obtain ⟨r, hem, hp, -⟩ | ⟨-, hp⟩ := h
  · obtain ⟨ph, k, rfl⟩ := Report.nextPhase_eq_failed_iff.mp (hp.symm.trans ht)
    exact ⟨ph, k, hem⟩
  · exact absurd (hp ht) hs

/-- Settles O46: each of the four things a step can do lands by the outcome it reports. -/
theorem outcomesDecideWhereTheCoreGoes : Obligations.OutcomesDecideWhereTheCoreGoes := by
  intro s t hs ht
  have hland : LandsByOutcome s t := (stepMove_of_step hs ht).lands
  refine ⟨fun hp => ⟨hland.enters_failed hp, ?_⟩, fun ph k => hland.of_emitted, fun r hem hr => ?_⟩
  · rintro ⟨ph, k, hem⟩
    exact (hland.of_emitted hem).1
  · obtain ⟨hphase, hcnt⟩ := hland.of_emitted hem
    exact ⟨hphase.trans (Report.nextPhase_eq_probe hr), hcnt⟩

end Sys2Proof.Machine
end

section
/-! ## `FAILED` without `rst` -/

namespace Sys2Proof.Machine

variable {s t : State} {g : EdgeIn}

/-- What every step that goes on keeps, every run that goes on keeps. -/
theorem run_keeps {P : State → Prop} (hstep : ∀ u v, P u → step u = .next v → P v) {n : Nat} (hs : P s)
    (h : Host.Core.run Sys2Proof.core n s = .next t) : P t := by
  induction n generalizing s with
  | zero => exact Host.Outcome.next.inj h ▸ hs
  | succ n ih =>
    obtain ⟨u, hu, hrun⟩ := run_succ h
    exact ih (hstep s u hs hu) hrun

/-- In `FAILED` an edge without `rst` can at most hand the held outcome over (R101, R144). -/
theorem edgeStep_failed (hp : s.phase = .failed) (hr : g.rst = false) (h : edgeStep g s = .next t) :
    t = s ∨ ∃ r, t = s.handTo r := by
  obtain ⟨hr', -⟩ | ⟨-, -, -, hs⟩ | ⟨-, -, -, hs⟩ | ⟨-, -, -, hs⟩ | ⟨-, -, -, hs⟩ := edgeStep_cases g s
  · simp [hr] at hr'
  · obtain ⟨r, -, ht⟩ := State.handOver_next (hs.symm.trans h)
    exact .inr ⟨r, ht⟩
  · exact .inl (Host.Outcome.next.inj (h.symm.trans hs))
  · exact .inl (Host.Outcome.next.inj (h.symm.trans (hs.trans (takeEvent_failed hp g.event_ne_reset))))
  · exact .inl (Host.Outcome.next.inj (h.symm.trans hs))

/-- The core is in `FAILED` with no `rst` to come, and has taken and emitted what `s` has. -/
structure FailedSince (s t : State) : Prop where
  phase : t.phase = .failed
  edges : ∀ g ∈ t.edges, g.rst = false
  consumed : t.consumed = s.consumed
  emitted : t.emitted = s.emitted

/-- A step uses up the edge, and hands over at most the held outcome. -/
theorem FailedSince.step {u v : State} (h : FailedSince s u) (hv : step u = .next v) : FailedSince s v := by
  cases he : u.edges with
  | nil =>
    rw [step_nil he] at hv
    exact Host.Outcome.next.inj hv ▸ h
  | cons g rest =>
    rw [step_cons he] at hv
    have hedges : ∀ g' ∈ g :: rest, g'.rst = false := he ▸ h.edges
    obtain ⟨hg, hrest⟩ := List.forall_mem_cons.mp hedges
    obtain rfl | ⟨r, rfl⟩ := edgeStep_failed (s := { u with edges := rest }) h.phase hg hv <;>
      exact ⟨h.phase, hrest, h.consumed, h.emitted⟩

/-- Settles O47: each step keeps `FailedSince`, so every run does. -/
theorem onlyResetLeavesFailed : Obligations.OnlyResetLeavesFailed := by
  intro n s t hp hr hrun
  have hend : FailedSince s t := run_keeps (P := FailedSince s) (fun _ _ hu hv => hu.step hv) ⟨hp, hr, rfl, rfl⟩ hrun
  exact ⟨hend.phase, hend.consumed, hend.emitted⟩

end Sys2Proof.Machine
end

section
/-! ## The priority of the port inputs, and the idle edge -/

namespace Sys2Proof.Machine

variable {s : State} {g : EdgeIn}

/-! The event of a beat, by priority (R139) -/

theorem EdgeIn.event_of_fail (hf : g.rxFail = true) : g.event = .fail := by
  simp [EdgeIn.event, hf]

theorem EdgeIn.event_of_end (hf : g.rxFail = false) (he : g.rxEnd = true) : g.event = .endRead := by
  simp [EdgeIn.event, hf, he]

theorem EdgeIn.event_of_byte (hf : g.rxFail = false) (he : g.rxEnd = false) : g.event = .byte g.rxData := by
  simp [EdgeIn.event, hf, he]

/-- An edge with `rst` delivers `Reset`, whatever the other inputs. -/
theorem edgeStep_of_rst (hr : g.rst = true) : edgeStep g s = takeEvent .reset s :=
  edgeStep_of_delivers (.inl ⟨hr, rfl⟩)

/-- A beat delivers the event presented. -/
theorem edgeStep_of_beat (hr : g.rst = false) (hrdy : s.rxReady = true) (hx : g.rxValid = true) :
    edgeStep g s = takeEvent g.event s :=
  edgeStep_of_delivers (.inr ⟨hr, (s.rxReady_iff.mp hrdy).2, hx, rfl⟩)

/-- An edge that presents nothing, with nothing to hand over, changes nothing (R152). -/
theorem edgeStep_of_idle (hr : g.rst = false) (hx : g.rxValid = false) (ho : s.out.valid = false ∨ g.outReady = false) :
    edgeStep g s = .next s := by
  cases hv : s.out.valid with
  | false => simp [edgeStep, hr, hv, hx]
  | true => exact edgeStep_of_not_ready hr hv (ho.resolve_left (by simp [hv]))

/-- Settles O28: `rst` delivers `Reset`, and a beat the event that `EdgeIn.event` gives. -/
theorem portPriority : Obligations.PortPriority := by
  intro g s
  refine ⟨fun hr => ⟨?_, edgeStep_of_rst hr⟩, fun hr hrdy hx => ?_⟩
  · exact (edgeStep_of_rst hr).trans (edgeStep_of_rst (g := .ofReset) rfl).symm
  · rw [edgeStep_of_beat hr hrdy hx]
    exact ⟨fun hf => by rw [EdgeIn.event_of_fail hf], fun hf he => by rw [EdgeIn.event_of_end hf he],
      fun hf he => by rw [EdgeIn.event_of_byte hf he]⟩

/-- Settles O32: the step with no edge left (log entry 9), and the idle edge. -/
theorem idleEdgeHoldsEveryRegister : Obligations.IdleEdgeHoldsEveryRegister := fun _ =>
  ⟨step_nil, fun _ _ he hr hx ho => (step_cons he).trans (edgeStep_of_idle hr hx ho)⟩

end Sys2Proof.Machine
end

/-! # Proofs: `RESET`, and the parity of the attempts (70_reset_and_hazards.md) -/

section
/-! ## `RESET` -/

namespace Sys2Proof.Machine

/-- Settles O11: the restarted state, the selection of `RESET`, and the hold of every other event in `FAILED`. -/
theorem resetRestartsTheCore : Obligations.ResetRestartsTheCore := by
  refine fun s => ⟨⟨s.restart, rfl, rfl, rfl, rfl, rfl, rfl, rfl, rfl, rfl⟩, ?_, fun e hp hmoves => ?_⟩
  · rw [decode_sel_word, decodeSel_reset]
  · by_contra he
    exact hmoves (takeEvent_failed hp he)

end Sys2Proof.Machine
end

section
/-! ## The parity of the attempts, while only bytes arrive -/

namespace Sys2Proof.Machine

variable {s t : State} {b : Byte}

/-- A byte taken outside `FAILED` leaves the core outside it and changes the parity of the count: the byte either moves the count on
by one or ends a read, and both reads have an even length (R50). -/
theorem EventStep.byte_flips_parity (h : EventStep s (.byte b) t) (hp : s.phase ≠ .failed) :
    t.phase ≠ .failed ∧ t.cnt.toNat % 2 = (s.cnt.toNat + 1) % 2 := by
  cases h with
  | failedHold _ hf => exact absurd hf hp
  | probeFirst _ _ hc => exact ⟨hp, by simp [hc]⟩
  | probeMatch _ _ hc => exact ⟨by simp, by simp [hc]⟩
  | probeMiss _ _ hc => exact ⟨hp, by simp [hc]⟩
  | payloadByte _ _ hc =>
    have hcnt : (s.cnt + 1).toNat = s.cnt.toNat + 1 := by bv_omega
    exact ⟨hp, congrArg (· % 2) hcnt⟩
  | payloadLast _ _ hc => exact ⟨by simp, by simp [hc]⟩

/-- A run of bytes from anywhere outside `FAILED` finishes outside it, and the count keeps the parity of the bytes taken. -/
theorem runEvents_listing_parity (bs : List Byte) (hs : s.posOk = true) (hp : s.phase ≠ .failed) :
    ∃ t, runEvents s (listing bs) = .finished t ∧ t.phase ≠ .failed ∧
      t.cnt.toNat % 2 = (s.cnt.toNat + bs.length) % 2 := by
  induction bs generalizing s with
  | nil => exact ⟨s, rfl, hp, rfl⟩
  | cons b bs ih =>
    obtain ⟨u, -, hstep⟩ := takeEvent_cases hs (.byte b)
    obtain ⟨hpu, hcu⟩ := hstep.byte_flips_parity hp
    obtain ⟨t, hrun, hpt, hct⟩ := ih (hstep.posOk hs) hpu
    refine ⟨t, (runEvents_eventStep (listing bs) hs hp hstep).trans hrun, hpt, ?_⟩
    rw [List.length_cons]
    omega

/-- Settles O53: at the start of an attempt the count is 0. -/
theorem bytesKeepTheAttemptParity : Obligations.BytesKeepTheAttemptParity := by
  intro bs s hp hc
  obtain ⟨t, hrun, hpt, hct⟩ := runEvents_listing_parity bs (State.posOk_of_cnt_zero hc) (by simp [hp])
  exact ⟨t, hrun, hpt, by simpa [hc] using hct⟩

end Sys2Proof.Machine
end
